-- ==== Sys2Proof/Word.lean ====
section
/-!
DEFINITION. The word types of TCPE (00_scope.md R14) and the operator `ceilDiv` (R15).
-/

namespace Sys2Proof

/-- A 32-bit register or bus word: ARG, USPSC, MSPSC, the command word (R12: `ARG_WIDTH`, `PRESC_WIDTH` = 32). -/
abbrev Word := BitVec 32

/-- A 16-bit timer register or chunk duration (R12: `CNT_WIDTH`, `PSC_WIDTH` = 16). -/
abbrev Half := BitVec 16

/-- An 8-bit code: the opcode byte and the micro-state (R37, R101). -/
abbrev Byte := BitVec 8

/-- A 17-bit count: REPS, REP and TIM.PCNT (R44, R45, R54). -/
abbrev Count := BitVec 17

/-- R15: `ceil_div(a, b)` = floor((a + b - 1) / b), exact on naturals. -/
def ceilDiv (a b : Nat) : Nat := (a + b - 1) / b

end Sys2Proof
end

