-- ==== Sys2Proof/Syntax.lean ====
section
/-!
DEFINITION. The instructions of TCPE, one constructor per row of spec/opcode_table.json (30_encoding.md R102, R109),
the faults a command can raise (R252), and the moves of the four agents (00_scope.md R19) as events.
-/

namespace Sys2Proof

/-- One constructor per row of the opcode table. The eight HOST commands carry the operands R104 assembles; the fifteen
micro-operations (UOP format) have none, since everything they read is in State. -/
inductive Instr
  /-- INIT (R130): pclk in Hz and the DIV1 bit. -/
  | init (pclk : Word) (div1 : Bool)
  /-- RELEASE (R146). -/
  | release
  /-- DELAY_MS8 (R161). -/
  | delayMs8 (n : Word)
  /-- DELAY_MS16 (R162). -/
  | delayMs16 (n : Word)
  /-- DELAY_MS32 (R163). -/
  | delayMs32 (n : Word)
  /-- DELAY_US8 (R164). -/
  | delayUs8 (n : Word)
  /-- DELAY_US16 (R165). -/
  | delayUs16 (n : Word)
  /-- DELAY_US32 (R166). -/
  | delayUs32 (n : Word)
  /-- UOP.IDLE (R211). -/
  | uopIdle
  /-- UOP.EN_SET (R213). -/
  | uopEnSet
  /-- UOP.RST_SET (R214). -/
  | uopRstSet
  /-- UOP.RST_CLR (R215). -/
  | uopRstClr
  /-- UOP.EN_CLR (R216). -/
  | uopEnClr
  /-- UOP.DIR_DOWN (R217). -/
  | uopDirDown
  /-- UOP.CALC (R218). -/
  | uopCalc
  /-- UOP.CHUNK (R219). -/
  | uopChunk
  /-- UOP.PSC_WR (R220). -/
  | uopPscWr
  /-- UOP.UIF_CLR (R221). -/
  | uopUifClr
  /-- UOP.CNT_WR (R222). -/
  | uopCntWr
  /-- UOP.CEN_SET (R223). -/
  | uopCenSet
  /-- UOP.UIF_POLL (R224). -/
  | uopUifPoll
  /-- UOP.CEN_CLR (R225). -/
  | uopCenClr
  /-- UOP.FAULT (R226). -/
  | uopFault
deriving DecidableEq, Repr

/-- The unit U of a delay opcode (R103): milliseconds or microseconds. -/
inductive DelayUnit
  | ms
  | us
deriving DecidableEq, Repr

/-- The width W of a delay operand (R103, R104). -/
inductive OperandWidth
  | w8
  | w16
  | w32
deriving DecidableEq, Repr

/-- The fault causes of R252. Code 0 is NONE and codes 5 to 15 are never produced. -/
inductive FaultCause
  /-- R253: CMD written while BUSY = 1. -/
  | cmdWhileBusy
  /-- R254: INIT while LIFE = 1, or RELEASE or a delay while LIFE = 0. -/
  | lifecycle
  /-- R255: an illegal command word or an operand out of range. -/
  | illegalCmd
  /-- R256: INIT with f_eff of 2^32 or more. -/
  | domain
deriving DecidableEq, Repr

/-- The two RCC bits of the timer (R56, R57). -/
inductive RccBit
  | en
  | rst
deriving DecidableEq, Repr

/-- The timer registers an access can name (R12, R78). -/
inductive TimReg
  | cr1
  | sr
  | cnt
  | psc
  | arr
deriving DecidableEq, Repr

/-- A bus event of SEQ (R17): one primitive on one named register. `BusEvent.address` (Machine/Address.lean) gives the
address. -/
inductive BusEvent
  /-- `MemWrite(addr, 4, v)` on a timer register. -/
  | memWrite (r : TimReg) (v : Word)
  /-- `MemRead(addr, 4)` on a timer register. -/
  | memRead (r : TimReg)
  /-- `AtomicSetBit` on one of the timer's two RCC bits. -/
  | atomicSet (b : RccBit)
  /-- `AtomicClearBit` on one of the timer's two RCC bits. -/
  | atomicClear (b : RccBit)
deriving DecidableEq, Repr

/-- The size of a HOST access. Only whole words have a meaning (R79). -/
inductive AccessSize
  | byte
  | half
  | word
deriving DecidableEq, Repr

/-- The windows HOST can reach with reads and writes (R70). -/
inductive Window
  /-- The controller window, at `CTRL_BASE`. -/
  | controller
  /-- The timer window, at `TIM_BASE`. -/
  | timer
  /-- The RCC register of a bit, at `RCC_EN_ADDR` or `RCC_RST_ADDR`. -/
  | rcc (b : RccBit)
deriving DecidableEq, Repr

/-- Where a HOST access goes. DESIGN CHOICE (entry 4): the bases are OPEN (R85), so an access may name its window
instead of giving the address. `Platform.locate` (Machine/Address.lean) takes an address
to its window. -/
inductive Place
  /-- Offset `off` of a window. -/
  | inWindow (win : Window) (off : Nat)
  /-- A 32-bit physical address (R70, R86). -/
  | address (a : Word)
deriving DecidableEq, Repr

/-- One move of one agent (R19, R87; entry 1). -/
inductive Event
  /-- HOST reads `size` at a place. -/
  | hostRead (place : Place) (size : AccessSize)
  /-- HOST writes `v` with `size` at a place. -/
  | hostWrite (place : Place) (size : AccessSize) (v : Word)
  /-- HOST sets or clears one of the timer's two RCC bits by an atomic bit operation (R264). -/
  | hostBit (b : RccBit) (v : Bool)
  /-- SEQ's turn (R210). -/
  | seq
  /-- TIM's turn: one input-clock cycle (R265). -/
  | tim
  /-- ENV changes a foreign bit of an RCC register (R275). The model holds no such bit (R58). -/
  | env
  /-- The platform starts or stops the timer's input clock (R59). -/
  | clkRun (run : Bool)
  /-- Engine reset (R300). -/
  | engReset
  /-- System reset (R301). -/
  | sysReset
deriving DecidableEq, Repr, Inhabited

end Sys2Proof
end

