-- ==== Sys2Proof/Config.lean ====
section
/-!
DEFINITION. The parameters of 00_scope.md R12, the OPEN addresses, and the free values: constants with no body, of
which nothing can be proved but what holds of every value.
-/

namespace Sys2Proof

/-- The parameters of R12 that have a default. DESIGN CHOICE (entry 3): State carries them, no step changes them, and so
a statement about every state is a statement about every value of every parameter (R13). -/
structure Params where
  /-- `TIMCLK_DOUBLE_WHEN_DIV1` (R138, D9). -/
  timclkDoubleWhenDiv1 : Bool
  /-- `PSC_PLUS_ONE` (R266, D10). -/
  pscPlusOne : Bool
  /-- `UPDATE_ON_ZERO` (R269, D11). -/
  updateOnZero : Bool
  /-- `PSC_PRELOAD` (R268, D12). -/
  pscPreload : Bool
  /-- `ARR_RESET` (R53). -/
  arrReset : Half
  /-- `CEN_BIT` of CR1. -/
  cenBit : Fin 32
  /-- `DIR_BIT` of CR1. -/
  dirBit : Fin 32
  /-- `UIF_BIT` of SR. -/
  uifBit : Fin 32
  /-- `TIM_CR1_OFF`. -/
  cr1Off : Nat
  /-- `TIM_SR_OFF`. -/
  srOff : Nat
  /-- `TIM_CNT_OFF`. -/
  cntOff : Nat
  /-- `TIM_PSC_OFF`. -/
  pscOff : Nat
  /-- `TIM_ARR_OFF`. -/
  arrOff : Nat
deriving DecidableEq, Repr

/-- The defaults of R12. Bit positions, offsets and ARR_RESET are the spec's general-knowledge defaults (93 G1, G2). -/
def Params.default : Params where
  timclkDoubleWhenDiv1 := true
  pscPlusOne := false
  updateOnZero := true
  pscPreload := false
  arrReset := 0xFFFF#16
  cenBit := 0
  dirBit := 4
  uifBit := 0
  cr1Off := 0x00
  srOff := 0x10
  cntOff := 0x24
  pscOff := 0x28
  arrOff := 0x2C

/-- The offset of a timer register from TIM_BASE. -/
def Params.offset (p : Params) : TimReg → Nat
  | .cr1 => p.cr1Off
  | .sr => p.srOff
  | .cnt => p.cntOff
  | .psc => p.pscOff
  | .arr => p.arrOff

/-- Parameter values a concrete timer can have: CEN and DIR are different bits of CR1, the five registers are different
words, and every offset is a multiple of 4 (R81). -/
def Params.wf (p : Params) : Bool :=
  decide (p.cenBit ≠ p.dirBit) && decide ([p.cr1Off, p.srOff, p.cntOff, p.pscOff, p.arrOff].Nodup) &&
    [p.cr1Off, p.srOff, p.cntOff, p.pscOff, p.arrOff].all (· % 4 = 0)

/-- The OPEN parameters of R12 and R85: where the platform puts the windows and the timer's two RCC bits. -/
structure Platform where
  /-- `CTRL_BASE`. -/
  ctrlBase : Word
  /-- `TIM_BASE`. -/
  timBase : Word
  /-- The length of the timer window, which R70 leaves as open as its base (entry 4); an offset of `Params` may lie at or
  past it (DESIGN CHOICE, entry 29). -/
  timLen : Nat
  /-- `RCC_EN_ADDR`. -/
  rccEnAddr : Word
  /-- `RCC_EN_BIT`. -/
  rccEnBit : Fin 32
  /-- `RCC_RST_ADDR`. -/
  rccRstAddr : Word
  /-- `RCC_RST_BIT`. -/
  rccRstBit : Fin 32
deriving DecidableEq, Repr, Inhabited

/-- Any platform. OPEN in the spec, so a constant with no body (entry 4); `Config.platform` (Machine/Address.lean) holds
it to R85. -/
opaque Config.anyPlatform : Platform

/-- Free values: the `n`-th unconstrained draw of a run (R267, R300, R257 and the other open values of the log). State
counts the draws taken; a value of some width or range is the draw reduced to it. -/
opaque Config.draw : Nat → Nat

/-- The free schedule (R87, R316): the `n`-th event that no one placed. -/
opaque Config.schedule : Nat → Event

end Sys2Proof
end

