-- ==== Sys2Proof/WellFormed.lean ====
section
/-!
DEFINITION. Well-formed instructions: the operand constraint of 30_encoding.md R104, which is the hardware form of the
source's u8 and u16 arguments. Every other instruction is well formed as it stands.
-/

namespace Sys2Proof

/-- R104: `n` fits the operand width (a[31:8] = 0, a[31:16] = 0, no constraint). -/
def OperandWidth.admits : OperandWidth → Word → Bool
  | .w8, n => decide (n.toNat ≤ 255)
  | .w16, n => decide (n.toNat ≤ 65535)
  | .w32, _ => true

/-- The well-formedness check of an instruction. -/
def Instr.wellFormed : Instr → Bool
  | .init _ _ => true
  | .release => true
  | .delayMs8 n => OperandWidth.admits .w8 n
  | .delayMs16 n => OperandWidth.admits .w16 n
  | .delayMs32 n => OperandWidth.admits .w32 n
  | .delayUs8 n => OperandWidth.admits .w8 n
  | .delayUs16 n => OperandWidth.admits .w16 n
  | .delayUs32 n => OperandWidth.admits .w32 n
  | .uopIdle => true
  | .uopEnSet => true
  | .uopRstSet => true
  | .uopRstClr => true
  | .uopEnClr => true
  | .uopDirDown => true
  | .uopCalc => true
  | .uopChunk => true
  | .uopPscWr => true
  | .uopUifClr => true
  | .uopCntWr => true
  | .uopCenSet => true
  | .uopUifPoll => true
  | .uopCenClr => true
  | .uopFault => true

end Sys2Proof
end

