-- ==== Sys2Proof/Decode.lean ====
section
/-!
DEFINITION. The decoder of 30_encoding.md R107 (HOST command words with their ARG value) and R109 (micro-state codes),
total and rejecting by name, and after it the encoder written from the same tables (R101, R102, R109, R110).
-/

namespace Sys2Proof

/-- Why a word is no instruction. The first four are the cases (a) to (d) of R106; the fifth is an 8-bit value outside
the table of R109. -/
inductive DecodeError
  /-- R106 (a): RSV, bits 31:9, is not 0. -/
  | reservedBits
  /-- R106 (b): OPC is not in the table of R102. -/
  | unassignedOpcode
  /-- R106 (c): DIV1 = 1 and OPC is not 0x01. -/
  | div1OutsideInit
  /-- R106 (d): the operand constraint of R104 fails. -/
  | operandTooWide
  /-- R37, R109: no micro-state has this code. -/
  | unassignedMicroState
deriving DecidableEq, Repr

/-- The field OPC of a command word, bits 7:0 (R101). -/
def cmdOpc (c : Word) : Byte := c.extractLsb' 0 8

/-- The field DIV1 of a command word, bit 8 (R101). -/
def cmdDiv1 (c : Word) : Bool := c.getLsbD 8

/-- The field RSV of a command word, bits 31:9 (R101). -/
def cmdRsv (c : Word) : BitVec 23 := c.extractLsb' 9 23

/-- R104 read off the ARG bits: a[31:8] = 0 for 8-bit, a[31:16] = 0 for 16-bit, nothing for 32-bit. -/
def argFits : OperandWidth → Word → Bool
  | .w8, a => a.extractLsb' 8 24 == 0#24
  | .w16, a => a.extractLsb' 16 16 == 0#16
  | .w32, _ => true

/-- A delay operand: the whole ARG value where it fits (zext of a field whose high bits are 0 is the value itself),
an error where it does not (R104, R106 (d)). -/
def decodeDelay (w : OperandWidth) (mk : Word → Instr) (a : Word) : Except DecodeError Instr :=
  if argFits w a then .ok (mk a) else .error .operandTooWide

/-- R107: the decoder of a command word `c` with the ARG value `a`. -/
def decodeCommand (c a : Word) : Except DecodeError Instr :=
  if cmdRsv c ≠ 0#23 then .error .reservedBits
  else if cmdOpc c = 0x01#8 then .ok (.init a (cmdDiv1 c))
  else if cmdDiv1 c then .error .div1OutsideInit
  else if cmdOpc c = 0x02#8 then .ok .release
  else if cmdOpc c = 0x10#8 then decodeDelay .w8 .delayMs8 a
  else if cmdOpc c = 0x11#8 then decodeDelay .w16 .delayMs16 a
  else if cmdOpc c = 0x12#8 then decodeDelay .w32 .delayMs32 a
  else if cmdOpc c = 0x18#8 then decodeDelay .w8 .delayUs8 a
  else if cmdOpc c = 0x19#8 then decodeDelay .w16 .delayUs16 a
  else if cmdOpc c = 0x1A#8 then decodeDelay .w32 .delayUs32 a
  else .error .unassignedOpcode

/-- Micro-state codes of R109. -/
def Upc.idle : Byte := 0x00#8
/-- R109: EN_SET. -/
def Upc.enSet : Byte := 0x01#8
/-- R109: RST_SET. -/
def Upc.rstSet : Byte := 0x02#8
/-- R109: RST_CLR. -/
def Upc.rstClr : Byte := 0x03#8
/-- R109: EN_CLR. -/
def Upc.enClr : Byte := 0x04#8
/-- R109: DIR_DOWN. -/
def Upc.dirDown : Byte := 0x05#8
/-- R109: CALC. -/
def Upc.calc : Byte := 0x06#8
/-- R109: CHUNK. -/
def Upc.chunk : Byte := 0x10#8
/-- R109: PSC_WR. -/
def Upc.pscWr : Byte := 0x11#8
/-- R109: UIF_CLR. -/
def Upc.uifClr : Byte := 0x12#8
/-- R109: CNT_WR. -/
def Upc.cntWr : Byte := 0x13#8
/-- R109: CEN_SET. -/
def Upc.cenSet : Byte := 0x14#8
/-- R109: UIF_POLL. -/
def Upc.uifPoll : Byte := 0x15#8
/-- R109: CEN_CLR. -/
def Upc.cenClr : Byte := 0x16#8
/-- R109: FAULT. -/
def Upc.fault : Byte := 0x3F#8

/-- All codes of the table of R109, in its order. -/
def microStates : List Byte :=
  [Upc.idle, Upc.enSet, Upc.rstSet, Upc.rstClr, Upc.enClr, Upc.dirDown, Upc.calc, Upc.chunk, Upc.pscWr, Upc.uifClr,
   Upc.cntWr, Upc.cenSet, Upc.uifPoll, Upc.cenClr, Upc.fault]

/-- R109: the micro-operation a value of `upc` names. -/
def decodeMicro (u : Byte) : Except DecodeError Instr :=
  if u = Upc.idle then .ok .uopIdle
  else if u = Upc.enSet then .ok .uopEnSet
  else if u = Upc.rstSet then .ok .uopRstSet
  else if u = Upc.rstClr then .ok .uopRstClr
  else if u = Upc.enClr then .ok .uopEnClr
  else if u = Upc.dirDown then .ok .uopDirDown
  else if u = Upc.calc then .ok .uopCalc
  else if u = Upc.chunk then .ok .uopChunk
  else if u = Upc.pscWr then .ok .uopPscWr
  else if u = Upc.uifClr then .ok .uopUifClr
  else if u = Upc.cntWr then .ok .uopCntWr
  else if u = Upc.cenSet then .ok .uopCenSet
  else if u = Upc.uifPoll then .ok .uopUifPoll
  else if u = Upc.cenClr then .ok .uopCenClr
  else if u = Upc.fault then .ok .uopFault
  else .error .unassignedMicroState

/-- An encoded instruction (R100): a command word with its ARG value, or a micro-state code. -/
inductive Encoded
  | command (c a : Word)
  | micro (u : Byte)
deriving DecidableEq, Repr

/-- The decoder on either format (R100). -/
def decode : Encoded → Except DecodeError Instr
  | .command c a => decodeCommand c a
  | .micro u => decodeMicro u

/-- The encoder, from the tables of R102, R109 and R110. RELEASE leaves ARG unused; its encoding takes 0 there. -/
def encode : Instr → Encoded
  | .init pclk div1 => .command (if div1 then 0x00000101#32 else 0x00000001#32) pclk
  | .release => .command 0x00000002#32 0#32
  | .delayMs8 n => .command 0x00000010#32 n
  | .delayMs16 n => .command 0x00000011#32 n
  | .delayMs32 n => .command 0x00000012#32 n
  | .delayUs8 n => .command 0x00000018#32 n
  | .delayUs16 n => .command 0x00000019#32 n
  | .delayUs32 n => .command 0x0000001A#32 n
  | .uopIdle => .micro 0x00#8
  | .uopEnSet => .micro 0x01#8
  | .uopRstSet => .micro 0x02#8
  | .uopRstClr => .micro 0x03#8
  | .uopEnClr => .micro 0x04#8
  | .uopDirDown => .micro 0x05#8
  | .uopCalc => .micro 0x06#8
  | .uopChunk => .micro 0x10#8
  | .uopPscWr => .micro 0x11#8
  | .uopUifClr => .micro 0x12#8
  | .uopCntWr => .micro 0x13#8
  | .uopCenSet => .micro 0x14#8
  | .uopUifPoll => .micro 0x15#8
  | .uopCenClr => .micro 0x16#8
  | .uopFault => .micro 0x3F#8

/-- The encoded instruction of `nbits` table bits `w` (entry 24): 8 bits are a micro-state code; otherwise the command
word is bits 31:0 and the ARG value, to which the table gives no bits, is bits 63:32. Bits from `nbits` up are 0. -/
def tableWord (nbits w : Nat) : Encoded :=
  if nbits = 8 then .micro (BitVec.ofNat 8 w)
  else .command (BitVec.ofNat 32 (w % 2 ^ nbits)) (BitVec.ofNat 32 (w % 2 ^ nbits / 2 ^ 32))

/-- The instruction the decoder reads from the table word `w` of `nbits` bits; none where it refuses. -/
def decodeTableWord (nbits w : Nat) : Option Instr :=
  match decode (tableWord nbits w) with
  | .ok i => some i
  | .error _ => none

end Sys2Proof
end

