-- ==== Sys2Proof/Machine/State.lean ====
section
/-!
DEFINITION. The state of TCPE (10_state.md R30 to R64), the reasons a step can stop, and the state after system reset
(70_reset_and_hazards.md R301, R302).
-/

namespace Sys2Proof.Machine

/-- The timer registers (10_state.md R47 to R54). -/
structure Timer where
  /-- TIM.CR1.CEN (R47): the counter enable. -/
  cen : Bool
  /-- TIM.CR1.DIR (R48): 1 counts down. -/
  dir : Bool
  /-- TIM.SR.UIF (R49): the update flag. -/
  uif : Bool
  /-- TIM.CNT (R50). -/
  cnt : Half
  /-- TIM.PSC (R51). -/
  psc : Half
  /-- TIM.PSC_SH (R52): the prescaler value the counting logic uses. -/
  pscSh : Half
  /-- TIM.ARR (R53). -/
  arr : Half
  /-- TIM.PCNT (R54): the prescaler counter. -/
  pcnt : Count
deriving DecidableEq, Repr

/-- The values the timer registers have at a timer reset and hold while RCC.RST = 1 (R272, R301). -/
def Timer.atReset (p : Params) : Timer where
  cen := false
  dir := false
  uif := false
  cnt := 0#16
  psc := 0#16
  pscSh := 0#16
  arr := p.arrReset
  pcnt := 0#17

/-- The state of the machine: the tuple of R30, the OWNERSHIP record of R257, and the model's own fields. -/
structure State where
  /-- LIFE (R31): 0 RELEASED, 1 OWNED. -/
  life : Bool
  /-- BUSY (R32). -/
  busy : Bool
  /-- FAULT (R33). -/
  fault : Bool
  /-- FCODE (R33, R252). -/
  fcode : BitVec 4
  /-- ARG (R34). -/
  arg : Word
  /-- USPSC (R35). -/
  usPsc : Word
  /-- MSPSC (R36). -/
  msPsc : Word
  /-- upc (R37): the micro-state. -/
  upc : Byte
  /-- COP (R38): the opcode byte of the running command. -/
  cop : Byte
  /-- CDIV1 (R38). -/
  cdiv1 : Bool
  /-- N (R39): the latched operand. -/
  n : Word
  /-- LAST (R40). -/
  last : Bool
  /-- P (R41): the prescaler of the running delay. -/
  p : Word
  /-- DUR (R42). -/
  dur : Half
  /-- PREG (R43). -/
  preg : Half
  /-- REPS (R44). -/
  reps : Count
  /-- REP (R45). -/
  rep : Count
  /-- The timer registers (R47 to R54). -/
  tim : Timer
  /-- RCC.EN (R56). -/
  rccEn : Bool
  /-- RCC.RST (R57). -/
  rccRst : Bool
  /-- CLK_RUN (R59): the environment input. -/
  clkRun : Bool
  /-- The OWNERSHIP fault record (R257): set by a HOST access to the owned timer, never cleared, in no register. -/
  ownership : Bool
  /-- The premise of R229 (e), recorded: since system reset HOST has written a timer register or an RCC bit it was free to
  use (R264; entry 25). -/
  hostUsed : Bool
  /-- The premise of R229, recorded: since system reset an engine reset has cut a command short (entry 25). -/
  cutShort : Bool
  /-- The MODEL's own: the parameters of the step relation (R12, R30). No step changes them (entry 3). -/
  params : Params
  /-- The MODEL's own: the events placed for the coming steps (entry 1). -/
  inputs : List Event
  /-- The MODEL's own: how many events of the free schedule have been taken (entry 1). -/
  turn : Nat
  /-- The MODEL's own: how many free values have been drawn (entry 21). -/
  draws : Nat
  /-- The MODEL's own: what the last HOST read returned (entry 21). -/
  hostData : Option Word
  /-- The MODEL's own: the bus events SEQ has performed, newest first (R17, R80; entry 21). -/
  busTrace : List BusEvent
deriving DecidableEq, Repr

/-- Why a step stops with a fault. TCPE's own faults (R252) are no such stop: they are state (`State.raiseFault`). -/
inductive Fault
  /-- Raised by a SEQ turn when `upc` holds no code of the table of R109. R37 calls those values unreachable and no rule
  gives them a step. Safe: the model stops where the spec says nothing. -/
  | unreachableMicroState
deriving DecidableEq, Repr

/-- Why the model gives an event no meaning. -/
inductive Refusal
  /-- Raised by an arm of `exec` whose instruction has no meaning yet; no arm does. Safe. -/
  | notModelled (mnemonic : String)
  /-- R72: a HOST read of CMD. Safe. -/
  | cmdRead
  /-- R74: a HOST write to STAT, USPSC or MSPSC. Safe. -/
  | writeToReadOnly
  /-- R75: a HOST access to offsets 0x14 to 0x1F of the controller window. Safe. -/
  | reservedOffset
  /-- R79: a HOST access narrower than 32 bits. Safe. -/
  | narrowAccess
  /-- R81: a HOST access at an address that is no multiple of 4. Safe. -/
  | misaligned
  /-- A HOST access named by an offset at or past the end of the controller window (R71) or of an RCC register. Safe. -/
  | outsideWindow
  /-- A HOST access by an address in none of the windows of R70: hardware of which the spec says nothing. Safe. -/
  | otherHardware
  /-- A HOST access to a register of the concrete timer that is outside TCPE (R55). Safe. -/
  | otherTimerRegister
  /-- R273: a TIM step with DIR = 0. Safe. -/
  | upCount
deriving DecidableEq, Repr

/-- The state after system reset (R301, R302) of a timer with the parameters `ps` (R12, R13). The working registers, which
the spec leaves unspecified, hold the values entry 5 names (DESIGN CHOICE, unsafe); CLK_RUN, an environment draw, holds 1
(entry 7, DESIGN CHOICE, unsafe). -/
def State.resetFor (ps : Params) : State where
  life := false
  busy := false
  fault := false
  fcode := 0#4
  arg := 0#32
  usPsc := 0#32
  msPsc := 0#32
  upc := 0x00#8
  cop := 0#8
  cdiv1 := false
  n := 0#32
  last := false
  p := 0#32
  dur := 0#16
  preg := 0#16
  reps := 1#17
  rep := 0#17
  tim := Timer.atReset ps
  rccEn := false
  rccRst := false
  clkRun := true
  ownership := false
  hostUsed := false
  cutShort := false
  params := ps
  inputs := []
  turn := 0
  draws := 0
  hostData := none
  busTrace := []

/-- The machine right after reset (R302), with the defaults of R12, which `Params.default` writes out: what is said of this
state alone uses them (R13, entry 3). -/
def State.reset : State := State.resetFor Params.default

end Sys2Proof.Machine
end

