-- ==== Sys2Proof/Machine/Flags.lean ====
section
/-!
DEFINITION. The status flags (10_state.md R63): the STAT word (R60, 20_memory.md R74), the fault codes (R252), and the
flag read and written through the timer's status register (R78, R221).
-/

namespace Sys2Proof.Machine

/-- R252: the FCODE of a cause. -/
def faultCode : FaultCause → BitVec 4
  | .cmdWhileBusy => 1#4
  | .lifecycle => 2#4
  | .illegalCmd => 3#4
  | .domain => 4#4

/-- R60, R74: `STAT = {24'b0, FCODE, 1'b0, FAULT, LIFE, BUSY}`. -/
def State.statWord (s : State) : Word :=
  0#24 ++ s.fcode ++ 0#1 ++ BitVec.ofBool s.fault ++ BitVec.ofBool s.life ++ BitVec.ofBool s.busy

/-- The register word with only bit `b` equal to `v`. -/
def bitAt (b : Fin 32) (v : Bool) : Word := if v then 1#32 <<< b.val else 0#32

/-- R78: the CR1 word SEQ writes for a direction and an enable; all other bits 0. -/
def cr1Word (p : Params) (dir cen : Bool) : Word := bitAt p.dirBit dir ||| bitAt p.cenBit cen

/-- R78: the SR word UIF_CLR writes, `0xFFFFFFFF & ~(1 << UIF_BIT)`. -/
def uifClearWord (p : Params) : Word := 0xFFFFFFFF#32 &&& ~~~(1#32 <<< p.uifBit.val)

end Sys2Proof.Machine
end

