-- ==== Sys2Proof/Machine/Operands.lean ====
section
/-!
DEFINITION. Operands and arithmetic: the operand constraint (30_encoding.md R104), the prescaler computation
(40_lifecycle.md R138 to R140), the decomposition of a delay (41_delay.md R167) and the prescaler split
(42_bounded_delay.md R191).
-/

namespace Sys2Proof.Machine

/-- R20: `US_DIV`. -/
def usDiv : Nat := 1000000

/-- R20: `MS_DIV`. -/
def msDiv : Nat := 1000

/-- R20: `CHUNK_MAX`. -/
def chunkMax : Word := 0xFFFF#32

/-- R104: an operand outside its width makes the command illegal (R106 (d)). -/
def operandInRange (w : OperandWidth) (n : Word) : Bool := w.admits n

/-- R138: `mult(DIV1)`. -/
def clockMult (p : Params) (div1 : Bool) : Nat :=
  if p.timclkDoubleWhenDiv1 then (if div1 then 2 else 1) else (if div1 then 1 else 2)

/-- R138: `f_eff(pclk, DIV1)`, an exact natural number. -/
def fEff (p : Params) (pclk : Word) (div1 : Bool) : Nat := pclk.toNat * clockMult p div1

/-- R139: the microsecond prescaler of an effective frequency. It fits 32 bits for every f_eff of R138. -/
def usPrescaler (f : Nat) : Word := BitVec.ofNat 32 (ceilDiv f usDiv)

/-- R140: the millisecond prescaler of an effective frequency. It fits 32 bits for every f_eff of R138. -/
def msPrescaler (f : Nat) : Word := BitVec.ofNat 32 (ceilDiv f msDiv)

/-- R160: the cached prescaler of a unit. -/
def State.prescalerOf (u : DelayUnit) (s : State) : Word :=
  match u with
  | .ms => s.msPsc
  | .us => s.usPsc

/-- R167: this chunk is the last, unless N > 0xFFFF. -/
def chunkIsLast (n : Word) : Bool := decide (n.toNat ≤ chunkMax.toNat)

/-- R167: the duration of the next chunk. -/
def chunkDuration (n : Word) : Half := if chunkIsLast n then n.extractLsb' 0 16 else 0xFFFF#16

/-- R167: what is left of N after the next chunk. -/
def chunkRemainder (n : Word) : Word := if chunkIsLast n then 0#32 else n - chunkMax

/-- R191: REPS = (P >> 16) + 1, in 17 bits (R44). -/
def splitReps (p : Word) : Count := (p >>> 16).setWidth 17 + 1#17

/-- R191: PREG = P & 0xFFFF. -/
def splitPreg (p : Word) : Half := (p &&& 0xFFFF#32).setWidth 16

end Sys2Proof.Machine
end

