-- ==== Sys2Proof/Machine/Timer.lean ====
section
/-!
DEFINITION. The timer unit (60_exceptions.md R265 to R274): divisor, prescaler counter, tick, update, and what a write
to each of its registers does (20_memory.md R78, R83).
-/

namespace Sys2Proof.Machine

/-- R266: the tick divisor D(v). -/
def divisor (p : Params) (v : Half) : Nat := if p.pscPlusOne then v.toNat + 1 else max v.toNat 1

/-- R269: the update event. -/
def Timer.update (p : Params) (t : Timer) : Timer :=
  { t with uif := true, pscSh := if p.pscPreload then t.psc else t.pscSh }

/-- R269: one counter tick with DIR = 1. -/
def Timer.tick (p : Params) (t : Timer) : Timer :=
  if p.updateOnZero then
    if t.cnt = 1#16 then Timer.update p { t with cnt := 0#16 }
    else if t.cnt = 0#16 then Timer.update p { t with cnt := t.arr }
    else { t with cnt := t.cnt - 1#16 }
  else
    if t.cnt = 0#16 then Timer.update p { t with cnt := t.arr }
    else { t with cnt := t.cnt - 1#16 }

/-- R267: one input-clock cycle of a counting timer. -/
def Timer.cycle (p : Params) (t : Timer) : Timer :=
  if t.pcnt.toNat + 1 < divisor p t.pscSh then { t with pcnt := t.pcnt + 1#17 }
  else Timer.tick p { t with pcnt := 0#17 }

/-- CR1 takes the fields of a write (R47, R48); the model holds no other CR1 bit (R55). -/
def Timer.setCr1 (dir cen : Bool) (t : Timer) : Timer := { t with dir := dir, cen := cen }

/-- A write to PSC; without preload it reaches PSC_SH in the same step (R268). -/
def Timer.setPsc (p : Params) (v : Half) (t : Timer) : Timer :=
  { t with psc := v, pscSh := if p.pscPreload then t.pscSh else v }

/-- R221: a write of 0 to UIF clears it. -/
def Timer.clearUif (t : Timer) : Timer := { t with uif := false }

/-- R222: a write to CNT. -/
def Timer.setCnt (v : Half) (t : Timer) : Timer := { t with cnt := v }

/-- R267, R54: a start of the counter sets PCNT to the draw `k`, reduced to [0, D - 1]. -/
def Timer.startAt (p : Params) (k : Nat) (t : Timer) : Timer :=
  { t with pcnt := BitVec.ofNat 17 (k % divisor p t.pscSh) }

/-- What the word `v` written to register `r` does to the fields the model holds: CR1 by its bit positions, SR by write
0 to clear (R221), the rest by their low 16 bits (R78). Entry 13. -/
def Timer.writeWord (p : Params) (r : TimReg) (v : Word) (t : Timer) : Timer :=
  match r with
  | .cr1 => t.setCr1 (v.getLsbD p.dirBit.val) (v.getLsbD p.cenBit.val)
  | .sr => if v.getLsbD p.uifBit.val then t else t.clearUif
  | .cnt => t.setCnt (v.extractLsb' 0 16)
  | .psc => t.setPsc p (v.extractLsb' 0 16)
  | .arr => { t with arr := v.extractLsb' 0 16 }

/-- The word register `r` reads as, where `other` supplies the CR1 and SR bits the model does not hold (R55; entry 12).
The 16-bit registers read zero-extended (R78). -/
def Timer.readWord (p : Params) (r : TimReg) (other : Word) (t : Timer) : Word :=
  match r with
  | .cr1 => (other &&& ~~~(cr1Word p true true)) ||| cr1Word p t.dir t.cen
  | .sr => (other &&& ~~~(bitAt p.uifBit true)) ||| bitAt p.uifBit t.uif
  | .cnt => t.cnt.setWidth 32
  | .psc => t.psc.setWidth 32
  | .arr => t.arr.setWidth 32

end Sys2Proof.Machine
end

