-- ==== Sys2Proof/Machine/Ops.lean ====
section
/-!
DEFINITION. The named operations over the state: fault entry (60_exceptions.md R251) and the two resets that leave it
(70_reset_and_hazards.md R300, R301), free values, the bus primitives of SEQ (00_scope.md R17, 20_memory.md R76, R78,
R93), the command gate (R259), TIM's turn (R271) and the outcome of a HOST access to an owned timer (R257).
-/

namespace Sys2Proof.Machine

/-- The `k`-th coming free value, as a word of width `w`. -/
def State.freeBits (w k : Nat) (s : State) : BitVec w := BitVec.ofNat w (Config.draw (s.draws + k))

/-- The `k`-th coming free value, as a bit. -/
def State.freeBit (k : Nat) (s : State) : Bool := decide (Config.draw (s.draws + k) % 2 = 1)

/-- R251: `raise Fault(code)`, the one entry into the fault state. -/
def State.raiseFault (c : FaultCause) (s : State) : State :=
  { s with fault := true, fcode := faultCode c, busy := false, upc := Upc.fault }

/-- R300: engine reset, the only way out of the fault state (R261). The controller registers take their reset values and
the working registers become unspecified: free values, REPS and REP within the ranges of R44 and R45 (entry 6). It cuts a
command short that is running, or that CMD_WHILE_BUSY has stopped (R229, R260; entry 25). -/
def State.engineReset (s : State) : State :=
  { s with
    life := false, busy := false, fault := false, fcode := 0#4, arg := 0#32, usPsc := 0#32, msPsc := 0#32,
    upc := Upc.idle,
    cop := s.freeBits 8 0, cdiv1 := s.freeBit 1, n := s.freeBits 32 2, last := s.freeBit 3, p := s.freeBits 32 4,
    dur := s.freeBits 16 5, preg := s.freeBits 16 6,
    reps := BitVec.ofNat 17 (Config.draw (s.draws + 7) % 65536 + 1),
    rep := BitVec.ofNat 17 (Config.draw (s.draws + 8) % 65537),
    cutShort := s.cutShort || s.busy || (s.fault && decide (s.fcode = faultCode .cmdWhileBusy)),
    draws := s.draws + 9 }

/-- R301: system reset, engine reset together with the timer unit and the RCC bits. A run in the sense of R229 begins
anew. -/
def State.systemReset (s : State) : State :=
  { s.engineReset with
    tim := Timer.atReset s.params, rccEn := false, rccRst := false, hostUsed := false, cutShort := false }

/-- The order of checks every CMD write begins with (R259): FAULT = 1 ignores the write, BUSY = 1 is CMD_WHILE_BUSY,
and otherwise the command itself decides. -/
def State.commandGate (k : State → State) (s : State) : State :=
  if s.fault then s else if s.busy then s.raiseFault .cmdWhileBusy else k s

/-- SEQ performs a bus event (R80). -/
def State.logBus (e : BusEvent) (s : State) : State := { s with busTrace := e :: s.busTrace }

/-- The timer answers register accesses: its clock is on and its reset is released (R93). -/
def State.timerReachable (s : State) : Bool := s.rccEn && !s.rccRst

/-- A write to a timer register with field-level effect `f`; ignored while the timer is gated or in reset (R93, R272). -/
def State.timerWrite (f : Timer → Timer) (s : State) : State :=
  { s with tim := if s.timerReachable then f s.tim else s.tim }

/-- SEQ's `MemWrite` of `v` to timer register `r`, with field-level effect `f` (R78). -/
def State.seqWrite (r : TimReg) (v : Word) (f : Timer → Timer) (s : State) : State :=
  (s.timerWrite f).logBus (.memWrite r v)

/-- RCC.EN takes the value `v` (R76). -/
def State.writeEn (v : Bool) (s : State) : State := { s with rccEn := v }

/-- RCC.RST takes the value `v` (R76); while it is 1 every timer register holds its reset value (R57, R272). -/
def State.writeRst (v : Bool) (s : State) : State :=
  { s with rccRst := v, tim := if v then Timer.atReset s.params else s.tim }

/-- One of the two RCC bits takes the value `v` (R56, R57, R76). -/
def State.writeRccBit (b : RccBit) (v : Bool) (s : State) : State :=
  match b with
  | .en => s.writeEn v
  | .rst => s.writeRst v

/-- The value of one of the two RCC bits (R56, R57). -/
def State.rccBit (b : RccBit) (s : State) : Bool :=
  match b with
  | .en => s.rccEn
  | .rst => s.rccRst

/-- HOST has written the timer or an RCC bit it was free to use (R264, R229 (e)). -/
def State.markHostUse (s : State) : State := { s with hostUsed := true }

/-- The phase draw of a start of the counter (R267); a start that the timer ignores draws nothing (entry 9). -/
def State.drawPhase (s : State) : State :=
  { s with
    tim := if s.timerReachable then s.tim.startAt s.params (Config.draw s.draws) else s.tim,
    draws := if s.timerReachable then s.draws + 1 else s.draws }

/-- The value SEQ reads of SR's UIF bit; 0 while the timer is gated or in reset (R93, R224). -/
def State.pollUif (s : State) : Bool := s.timerReachable && s.tim.uif

/-- A successor the spec does not give: a free value among the micro-states of R109 (entries 16, 17). -/
def State.gotoFree (s : State) : State :=
  { s with upc := microStates.getD (Config.draw s.draws % 15) Upc.idle, draws := s.draws + 1 }

/-- REP <- REP + 1 (R225). A sum past 17 bits, which R45 excludes, is a free value (entry 17). -/
def State.countRepetition (s : State) : State :=
  { s with
    rep := if s.rep = 0x1FFFF#17 then s.freeBits 17 0 else s.rep + 1#17,
    draws := if s.rep = 0x1FFFF#17 then s.draws + 1 else s.draws }

/-- R225: the successor of CEN_CLR, with the new REP. -/
def State.afterRepetition (s : State) : State :=
  if s.rep.toNat < s.reps.toNat then { s with upc := Upc.uifClr }
  else if s.rep = s.reps then
    if s.last then { s with upc := Upc.idle, busy := false } else { s with upc := Upc.chunk }
  else s.gotoFree

/-- R215: the successor of RST_CLR, by COP. Another COP (R229 (f) excludes it) has none in the spec: entry 16. -/
def State.afterResetPulse (s : State) : State :=
  if s.cop = 0x01#8 then { s with upc := Upc.dirDown }
  else if s.cop = 0x02#8 then { s with upc := Upc.enClr }
  else s.gotoFree

/-- R271: the condition under which TIM has a step. -/
def State.counting (s : State) : Bool := s.clkRun && s.rccEn && !s.rccRst && s.tim.cen

/-- TIM's turn (R271, R267, R273): nothing where it has no step, one input-clock cycle where it counts down. -/
def State.timTurn (s : State) : Host.Outcome State Fault Refusal :=
  if s.counting then
    if s.tim.dir then .next { s with tim := s.tim.cycle s.params } else .refused .upCount
  else .next s

/-- The timer is SEQ's alone (R264): HOST must not touch it. -/
def State.owned (s : State) : Bool := s.life || s.busy

/-- R257: a HOST access to the owned timer is recorded, and what the race leaves in the timer, the two RCC bits and the
data of a read is free, within R272 (a timer in reset holds its reset values) and R52 (without preload PSC_SH equals PSC). -/
def State.ownershipRace (isRead : Bool) (s : State) : State :=
  { s with
    ownership := true,
    rccEn := s.freeBit 0, rccRst := s.freeBit 1,
    tim := if s.freeBit 1 then Timer.atReset s.params else
      { cen := s.freeBit 2, dir := s.freeBit 3, uif := s.freeBit 4, cnt := s.freeBits 16 5, psc := s.freeBits 16 6,
        pscSh := if s.params.pscPreload then s.freeBits 16 7 else s.freeBits 16 6,
        arr := s.freeBits 16 8, pcnt := s.freeBits 17 9 },
    hostData := if isRead then some (s.freeBits 32 10) else s.hostData, draws := s.draws + 11 }

end Sys2Proof.Machine
end

