-- ==== Sys2Proof/Machine/Delay.lean ====
section
/-!
DEFINITION. The six delay commands (41_delay.md R161 to R166) over one accept step (R160, R212). The micro-operations
they then run are in Machine/MicroDelay.lean.
-/

namespace Sys2Proof.Machine

/-- R160 checks 3 and 4 and the delay branch of R212, for a command of unit `u`, operand width `w` and opcode `opc`. -/
def State.acceptDelay (u : DelayUnit) (w : OperandWidth) (opc : Byte) (n : Word) (s : State) : State :=
  if !operandInRange w n then s.raiseFault .illegalCmd
  else if s.life then
    { s with busy := true, cop := opc, n := n, p := s.prescalerOf u, upc := Upc.chunk }
  else s.raiseFault .lifecycle

/-- DELAY_MS8 (R161). -/
def execDelayMs8 (n : Word) (s : State) : Host.Outcome State Fault Refusal :=
  .next (s.commandGate (State.acceptDelay .ms .w8 0x10#8 n))

/-- DELAY_MS16 (R162). -/
def execDelayMs16 (n : Word) (s : State) : Host.Outcome State Fault Refusal :=
  .next (s.commandGate (State.acceptDelay .ms .w16 0x11#8 n))

/-- DELAY_MS32 (R163). -/
def execDelayMs32 (n : Word) (s : State) : Host.Outcome State Fault Refusal :=
  .next (s.commandGate (State.acceptDelay .ms .w32 0x12#8 n))

/-- DELAY_US8 (R164). -/
def execDelayUs8 (n : Word) (s : State) : Host.Outcome State Fault Refusal :=
  .next (s.commandGate (State.acceptDelay .us .w8 0x18#8 n))

/-- DELAY_US16 (R165). -/
def execDelayUs16 (n : Word) (s : State) : Host.Outcome State Fault Refusal :=
  .next (s.commandGate (State.acceptDelay .us .w16 0x19#8 n))

/-- DELAY_US32 (R166). -/
def execDelayUs32 (n : Word) (s : State) : Host.Outcome State Fault Refusal :=
  .next (s.commandGate (State.acceptDelay .us .w32 0x1A#8 n))

end Sys2Proof.Machine
end

