-- ==== Sys2Proof/Machine/Lifecycle.lean ====
section
/-!
DEFINITION. The lifecycle commands INIT and RELEASE (40_lifecycle.md): the accept step of 43_sequencer.md R212. The
micro-operations they then run are in Machine/MicroLifecycle.lean.
-/

namespace Sys2Proof.Machine

/-- R132 checks 4 and 5, and the INIT branch of R212. -/
def State.acceptInit (pclk : Word) (div1 : Bool) (s : State) : State :=
  if s.life then s.raiseFault .lifecycle
  else if 4294967296 ≤ fEff s.params pclk div1 then s.raiseFault .domain
  else { s with life := true, busy := true, cop := 0x01#8, n := pclk, cdiv1 := div1, upc := Upc.enSet }

/-- R147 check 4, and the RELEASE branch of R212. -/
def State.acceptRelease (s : State) : State :=
  if s.life then { s with busy := true, cop := 0x02#8, upc := Upc.rstSet } else s.raiseFault .lifecycle

/-- INIT (R130). -/
def execInit (pclk : Word) (div1 : Bool) (s : State) : Host.Outcome State Fault Refusal :=
  .next (s.commandGate (State.acceptInit pclk div1))

/-- RELEASE (R146). -/
def execRelease (s : State) : Host.Outcome State Fault Refusal := .next (s.commandGate State.acceptRelease)

end Sys2Proof.Machine
end

