-- ==== Sys2Proof/Machine/MicroDelay.lean ====
section
/-!
DEFINITION. The micro-operations of a delay command (43_sequencer.md R219 to R225): the decomposition step and the
bounded delay of 42_bounded_delay.md R190. Each is one step (R210).
-/

namespace Sys2Proof.Machine

/-- CHUNK (R219, R167); no bus event. -/
def execUopChunk (s : State) : Host.Outcome State Fault Refusal :=
  .next { s with
    dur := chunkDuration s.n, n := chunkRemainder s.n, last := chunkIsLast s.n, upc := Upc.pscWr }

/-- PSC_WR (R220, R191): the split of P, and PSC <- PREG. -/
def execUopPscWr (s : State) : Host.Outcome State Fault Refusal :=
  .next { s.seqWrite .psc ((splitPreg s.p).setWidth 32) (Timer.setPsc s.params (splitPreg s.p)) with
    reps := splitReps s.p, preg := splitPreg s.p, rep := 0#17, upc := Upc.uifClr }

/-- UIF_CLR (R221). -/
def execUopUifClr (s : State) : Host.Outcome State Fault Refusal :=
  .next { s.seqWrite .sr (uifClearWord s.params) Timer.clearUif with upc := Upc.cntWr }

/-- CNT_WR (R222): CNT <- DUR. -/
def execUopCntWr (s : State) : Host.Outcome State Fault Refusal :=
  .next { s.seqWrite .cnt (s.dur.setWidth 32) (Timer.setCnt s.dur) with upc := Upc.cenSet }

/-- CEN_SET (R223): CR1 <- DIR | CEN, and the phase draw of R267. -/
def execUopCenSet (s : State) : Host.Outcome State Fault Refusal :=
  .next { (s.seqWrite .cr1 (cr1Word s.params true true) (Timer.setCr1 true true)).drawPhase with upc := Upc.uifPoll }

/-- UIF_POLL (R224, R194): one read of SR; stay while UIF = 0. -/
def execUopUifPoll (s : State) : Host.Outcome State Fault Refusal :=
  .next { s.logBus (.memRead .sr) with upc := if s.pollUif then Upc.cenClr else Upc.uifPoll }

/-- CEN_CLR (R225): CR1 <- DIR, REP <- REP + 1, then the next repetition, the next chunk, or the end of the command. -/
def execUopCenClr (s : State) : Host.Outcome State Fault Refusal :=
  .next (s.seqWrite .cr1 (cr1Word s.params true false) (Timer.setCr1 true false)).countRepetition.afterRepetition

end Sys2Proof.Machine
end

