-- ==== Sys2Proof/Machine/MicroLifecycle.lean ====
section
/-!
DEFINITION. The micro-operations of INIT and RELEASE, with IDLE and FAULT (43_sequencer.md R211, R213 to R218, R226).
Each performs its bus event, its register updates and the move to its successor in one step (R210).
-/

namespace Sys2Proof.Machine

/-- IDLE (R211): SEQ has no step, so its turn changes nothing. -/
def execUopIdle (s : State) : Host.Outcome State Fault Refusal := .next s

/-- EN_SET (R213). -/
def execUopEnSet (s : State) : Host.Outcome State Fault Refusal :=
  .next { (s.writeEn true).logBus (.atomicSet .en) with upc := Upc.rstSet }

/-- RST_SET (R214). -/
def execUopRstSet (s : State) : Host.Outcome State Fault Refusal :=
  .next { (s.writeRst true).logBus (.atomicSet .rst) with upc := Upc.rstClr }

/-- RST_CLR (R215). -/
def execUopRstClr (s : State) : Host.Outcome State Fault Refusal :=
  .next ((s.writeRst false).logBus (.atomicClear .rst)).afterResetPulse

/-- EN_CLR (R216). -/
def execUopEnClr (s : State) : Host.Outcome State Fault Refusal :=
  .next { (s.writeEn false).logBus (.atomicClear .en) with life := false, busy := false, upc := Upc.idle }

/-- DIR_DOWN (R217): CR1 <- DIR. -/
def execUopDirDown (s : State) : Host.Outcome State Fault Refusal :=
  .next { s.seqWrite .cr1 (cr1Word s.params true false) (Timer.setCr1 true false) with upc := Upc.calc }

/-- CALC (R218): both prescalers from N and CDIV1; no bus event. -/
def execUopCalc (s : State) : Host.Outcome State Fault Refusal :=
  .next { s with
    usPsc := usPrescaler (fEff s.params s.n s.cdiv1), msPsc := msPrescaler (fEff s.params s.n s.cdiv1),
    busy := false, upc := Upc.idle }

/-- FAULT (R226): SEQ has no step, so its turn changes nothing. -/
def execUopFault (s : State) : Host.Outcome State Fault Refusal := .next s

end Sys2Proof.Machine
end

