-- ==== Sys2Proof/Machine/Dispatch.lean ====
section
/-!
DEFINITION. The meaning of each instruction: one arm per constructor of Instr.
-/

namespace Sys2Proof.Machine

def exec (i : Instr) (s : State) : Host.Outcome State Fault Refusal :=
  match i with
  | .init pclk div1 => Sys2Proof.Machine.execInit pclk div1 s
  | .release => Sys2Proof.Machine.execRelease s
  | .delayMs8 n => Sys2Proof.Machine.execDelayMs8 n s
  | .delayMs16 n => Sys2Proof.Machine.execDelayMs16 n s
  | .delayMs32 n => Sys2Proof.Machine.execDelayMs32 n s
  | .delayUs8 n => Sys2Proof.Machine.execDelayUs8 n s
  | .delayUs16 n => Sys2Proof.Machine.execDelayUs16 n s
  | .delayUs32 n => Sys2Proof.Machine.execDelayUs32 n s
  | .uopIdle => Sys2Proof.Machine.execUopIdle s
  | .uopEnSet => Sys2Proof.Machine.execUopEnSet s
  | .uopRstSet => Sys2Proof.Machine.execUopRstSet s
  | .uopRstClr => Sys2Proof.Machine.execUopRstClr s
  | .uopEnClr => Sys2Proof.Machine.execUopEnClr s
  | .uopDirDown => Sys2Proof.Machine.execUopDirDown s
  | .uopCalc => Sys2Proof.Machine.execUopCalc s
  | .uopChunk => Sys2Proof.Machine.execUopChunk s
  | .uopPscWr => Sys2Proof.Machine.execUopPscWr s
  | .uopUifClr => Sys2Proof.Machine.execUopUifClr s
  | .uopCntWr => Sys2Proof.Machine.execUopCntWr s
  | .uopCenSet => Sys2Proof.Machine.execUopCenSet s
  | .uopUifPoll => Sys2Proof.Machine.execUopUifPoll s
  | .uopCenClr => Sys2Proof.Machine.execUopCenClr s
  | .uopFault => Sys2Proof.Machine.execUopFault s

end Sys2Proof.Machine
end

