-- ==== Sys2Proof/Machine/Address.lean ====
section
/-!
DEFINITION. The address map (20_memory.md R70, R71, R85, R86): where the platform puts the windows and the two RCC bits,
what R85 requires of it, the window an address lies in, what a HOST access names, and the addresses of SEQ's bus events
(R76, R78).
-/

namespace Sys2Proof

/-- Offset of CMD (R71). -/
def cmdOff : Nat := 0x00
/-- Offset of ARG (R71). -/
def argOff : Nat := 0x04
/-- Offset of STAT (R71). -/
def statOff : Nat := 0x08
/-- Offset of USPSC (R71). -/
def usPscOff : Nat := 0x0C
/-- Offset of MSPSC (R71). -/
def msPscOff : Nat := 0x10
/-- Length of the controller window (R71). -/
def ctrlLen : Nat := 0x20

/-- The register that holds an RCC bit (R56, R57). -/
def Platform.rccAddr (pl : Platform) : RccBit → Word
  | .en => pl.rccEnAddr
  | .rst => pl.rccRstAddr

/-- The number of an RCC bit in its register (R56, R57). -/
def Platform.rccBit (pl : Platform) : RccBit → Fin 32
  | .en => pl.rccEnBit
  | .rst => pl.rccRstBit

/-- Where a window begins (R70). -/
def Platform.base (pl : Platform) : Window → Word
  | .controller => pl.ctrlBase
  | .timer => pl.timBase
  | .rcc b => pl.rccAddr b

/-- How many bytes a window has (R71, R79). -/
def Platform.length (pl : Platform) : Window → Nat
  | .controller => ctrlLen
  | .timer => pl.timLen
  | .rcc _ => 4

/-- The register of RCC bit `r` holds RCC bit `b`: its own, and the other where both addresses are equal (R85). -/
def Platform.holds (pl : Platform) (r b : RccBit) : Bool := decide (pl.rccAddr r = pl.rccAddr b)

/-- Two windows have no byte in common. -/
def Platform.apart (pl : Platform) (v w : Window) : Bool :=
  decide ((pl.base v).toNat + pl.length v ≤ (pl.base w).toNat ∨ (pl.base w).toNat + pl.length w ≤ (pl.base v).toNat)

/-- A window lies in the address space and begins at a word (R70, R81). -/
def Platform.fits (pl : Platform) (w : Window) : Bool :=
  decide ((pl.base w).toNat + pl.length w ≤ 2 ^ 32) && decide ((pl.base w).toNat % 4 = 0)

/-- What R85 requires of a platform: the windows and the RCC registers do not overlap, and the two RCC registers are one
only if the two bits differ. Besides, every window fits (R70, R81) and the timer's holds the default offsets (R12). DESIGN
CHOICE (entry 29): the length of the timer window is not tied to the offsets of `Params`, so that an offset other than the
default may lie past it, where an access by address is one to other hardware. -/
def Platform.wf (pl : Platform) : Bool :=
  pl.fits .controller && pl.fits .timer && pl.fits (.rcc .en) && pl.fits (.rcc .rst) &&
    pl.apart .controller .timer && pl.apart .controller (.rcc .en) && pl.apart .controller (.rcc .rst) &&
    pl.apart .timer (.rcc .en) && pl.apart .timer (.rcc .rst) &&
    (if pl.rccEnAddr = pl.rccRstAddr then decide (pl.rccEnBit ≠ pl.rccRstBit) else pl.apart (.rcc .en) (.rcc .rst)) &&
    decide (Params.default.arrOff + 4 ≤ pl.timLen)

/-- One platform that meets R85, with nothing else to say for it (entry 4). -/
def Platform.somePlatform : Platform where
  ctrlBase := 0x00000000#32
  timBase := 0x00001000#32
  timLen := 0x1000
  rccEnAddr := 0x00002000#32
  rccEnBit := 0
  rccRstAddr := 0x00002004#32
  rccRstBit := 0

/-- The platform this instance is built for (R4: exactly one; `TIMER_VARIANT` is this choice together with the values
of `Params`), held to R85: every platform that meets R85 can be `Config.anyPlatform`, and the spec speaks of no other. -/
def Config.platform : Platform := if Config.anyPlatform.wf then Config.anyPlatform else Platform.somePlatform

/-- The offset of an address in a window of `pl`, where the address lies in it. -/
def Platform.offsetIn (pl : Platform) (a : Word) (w : Window) : Option Nat :=
  if (a - pl.base w).toNat < pl.length w then some (a - pl.base w).toNat else none

/-- The window an address lies in, and its offset there (R70, R71, R85); none for the rest of the address space, which
belongs to other hardware. -/
def Platform.locate (pl : Platform) (a : Word) : Option (Window × Nat) :=
  ((pl.offsetIn a .controller).map fun off => (.controller, off)) <|>
  ((pl.offsetIn a .timer).map fun off => (.timer, off)) <|>
  ((pl.offsetIn a (.rcc .en)).map fun off => (.rcc .en, off)) <|>
  ((pl.offsetIn a (.rcc .rst)).map fun off => (.rcc .rst, off))

/-- The window and offset of a HOST access on platform `pl`. -/
def Place.locate (pl : Platform) : Place → Option (Window × Nat)
  | .inWindow win off => some (win, off)
  | .address a => pl.locate a

/-- The window and offset a HOST access of an event names, on `Config.platform`; none for an event of another agent, and
for an access to other hardware. -/
def Event.target (e : Event) : Option (Window × Nat) :=
  match e with
  | .hostRead place _ => place.locate Config.platform
  | .hostWrite place _ _ => place.locate Config.platform
  | .hostBit b _ => some (.rcc b, 0)
  | .seq => none
  | .tim => none
  | .env => none
  | .clkRun _ => none
  | .engReset => none
  | .sysReset => none

/-- The access goes to the timer window or to a register of its two RCC bits, which only their owner may use (R257, R264,
R306). -/
def Event.touchesTimer (e : Event) : Prop :=
  match e.target with
  | some (.controller, _) => False
  | some (.timer, _) => True
  | some (.rcc _, _) => True
  | none => False

/-- The event is the HOST's write of the whole word `c` to CMD (R72), named or by its address. -/
def Event.isCommand (c : Word) (e : Event) : Prop :=
  ∃ place, e = .hostWrite place .word c ∧ place.locate Config.platform = some (.controller, cmdOff)

/-- The address a bus event of SEQ goes to (R76, R78), on platform `pl`. -/
def BusEvent.address (pl : Platform) (p : Params) : BusEvent → Word
  | .memWrite r _ => pl.timBase + BitVec.ofNat 32 (p.offset r)
  | .memRead r => pl.timBase + BitVec.ofNat 32 (p.offset r)
  | .atomicSet b => pl.rccAddr b
  | .atomicClear b => pl.rccAddr b

/-- The register bit an atomic bus event names (R76), on platform `pl`; none for a whole-word access. -/
def BusEvent.bitIndex (pl : Platform) : BusEvent → Option (Fin 32)
  | .memWrite _ _ => none
  | .memRead _ => none
  | .atomicSet b => some (pl.rccBit b)
  | .atomicClear b => some (pl.rccBit b)

end Sys2Proof
end

