-- ==== Sys2Proof/Machine/HostBus.lean ====
section
/-!
DEFINITION. What HOST accesses do, but for the CMD write (Machine/Events.lean): the controller window (20_memory.md R71
to R75, R79, R81), the timer window and the timer's two RCC bits (60_exceptions.md R257, R264; 70_reset_and_hazards.md
R306; 20_memory.md R93).
-/

namespace Sys2Proof.Machine

/-- A HOST read that returned `v`. -/
def State.returns (v : Word) (s : State) : Host.Outcome State Fault Refusal := .next { s with hostData := some v }

/-- The checks on the shape of a HOST access (R79, R81) before `k`. -/
def wholeWord (off : Nat) (size : AccessSize) (k : Host.Outcome State Fault Refusal) : Host.Outcome State Fault Refusal :=
  if size ≠ .word then .refused .narrowAccess else if off % 4 ≠ 0 then .refused .misaligned else k

/-- A HOST read of the controller window (R71 to R75). -/
def State.readController (off : Nat) (size : AccessSize) (s : State) : Host.Outcome State Fault Refusal :=
  wholeWord off size <|
    if off = cmdOff then .refused .cmdRead
    else if off = argOff then s.returns s.arg
    else if off = statOff then s.returns s.statWord
    else if off = usPscOff then s.returns s.usPsc
    else if off = msPscOff then s.returns s.msPsc
    else if off < ctrlLen then .refused .reservedOffset
    else .refused .outsideWindow

/-- A HOST write to the controller window (R71 to R75), where `issue` is the command accept of a write to CMD (R72). -/
def State.writeController (off : Nat) (size : AccessSize) (v : Word) (issue : Host.Outcome State Fault Refusal)
    (s : State) : Host.Outcome State Fault Refusal :=
  wholeWord off size <|
    if off = cmdOff then issue
    else if off = argOff then .next { s with arg := v }
    else if off = statOff ∨ off = usPscOff ∨ off = msPscOff then .refused .writeToReadOnly
    else if off < ctrlLen then .refused .reservedOffset
    else .refused .outsideWindow

/-- The timer register at an offset of the timer window (R12); none for one outside TCPE (R55). -/
def timRegAt (p : Params) (off : Nat) : Option TimReg :=
  if off = p.cr1Off then some .cr1
  else if off = p.srOff then some .sr
  else if off = p.cntOff then some .cnt
  else if off = p.pscOff then some .psc
  else if off = p.arrOff then some .arr
  else none

/-- A HOST read of a timer register HOST may use (R264; entry 12). -/
def State.readTimerReg (r : TimReg) (s : State) : Host.Outcome State Fault Refusal :=
  { s with draws := s.draws + 1 }.returns (s.tim.readWord s.params r (s.freeBits 32 0))

/-- A HOST write to a timer register HOST may use (R264; entry 13). A write that starts the counter draws its phase
(R54; entry 10). -/
def State.writeTimerReg (r : TimReg) (v : Word) (s : State) : State :=
  let s' := (s.timerWrite (Timer.writeWord s.params r v)).markHostUse
  if s'.tim.cen && !s.tim.cen then s'.drawPhase else s'

/-- A HOST read of the timer window. Every read returns 0 while the timer is gated or in reset (R93). -/
def State.readTimer (off : Nat) (size : AccessSize) (s : State) : Host.Outcome State Fault Refusal :=
  if s.owned then .next (s.ownershipRace true)
  else if s.timerReachable then
    wholeWord off size <|
      match timRegAt s.params off with
      | some r => s.readTimerReg r
      | none => .refused .otherTimerRegister
  else s.returns 0#32

/-- A HOST write to the timer window. Every write is ignored while the timer is gated or in reset (R93, R272). -/
def State.writeTimer (off : Nat) (size : AccessSize) (v : Word) (s : State) : Host.Outcome State Fault Refusal :=
  if s.owned then .next (s.ownershipRace false)
  else if s.timerReachable then
    wholeWord off size <|
      match timRegAt s.params off with
      | some r => .next (s.writeTimerReg r v)
      | none => .refused .otherTimerRegister
  else .next s

/-- A HOST atomic bit operation on one of the timer's two RCC bits (R257, R264). -/
def State.hostRcc (b : RccBit) (v : Bool) (s : State) : State :=
  if s.owned then s.ownershipRace false else (s.writeRccBit b v).markHostUse

/-- What a word read of the RCC register of `r` shows of the timer's bit `b`: the bit, where the register holds it. -/
def State.showRccBit (pl : Platform) (r b : RccBit) (s : State) (w : Word) : Word :=
  if pl.holds r b then (w &&& ~~~(bitAt (pl.rccBit b) true)) ||| bitAt (pl.rccBit b) (s.rccBit b) else w

/-- What a word written to the RCC register of `r` does to the timer's bit `b`: sets it, where the register holds it. -/
def State.takeRccBit (pl : Platform) (r b : RccBit) (v : Word) (s : State) : State :=
  if pl.holds r b then s.writeRccBit b (v.getLsbD (pl.rccBit b).val) else s

/-- The checks on the place of an access to an RCC register (R79, R81) before `k`. -/
def wholeRegister (off : Nat) (size : AccessSize) (k : Host.Outcome State Fault Refusal) :
    Host.Outcome State Fault Refusal :=
  wholeWord off size <| if off = 0 then k else .refused .outsideWindow

/-- A HOST read of the RCC register of `r` (R264, R306). The foreign bits, which no model holds (R58), read free (entry
12). -/
def State.readRcc (r : RccBit) (off : Nat) (size : AccessSize) (s : State) : Host.Outcome State Fault Refusal :=
  if s.owned then .next (s.ownershipRace true)
  else wholeRegister off size <|
    { s with draws := s.draws + 1 }.returns
      (s.showRccBit Config.platform r .rst (s.showRccBit Config.platform r .en (s.freeBits 32 0)))

/-- A HOST write of a whole word to the RCC register of `r` (R264, R306, R315; entry 13). -/
def State.writeRcc (r : RccBit) (off : Nat) (size : AccessSize) (v : Word) (s : State) :
    Host.Outcome State Fault Refusal :=
  if s.owned then .next (s.ownershipRace false)
  else wholeRegister off size <|
    .next ((s.takeRccBit Config.platform r .en v).takeRccBit Config.platform r .rst v).markHostUse

end Sys2Proof.Machine
end

