-- ==== Sys2Proof/Machine/Events.lean ====
section
/-!
DEFINITION. One event of one agent (00_scope.md R19, 20_memory.md R87): how a CMD write and a SEQ turn reach `exec`, the
event a step takes, and the placing of an instruction where the next step fetches it.
-/

namespace Sys2Proof.Machine

/-- R212: the HOST's write of `c` to CMD, with ARG as it is. A legal command runs as its instruction; an illegal word
raises ILLEGAL_CMD after the checks every CMD write begins with (R259). -/
def State.issueCommand (c : Word) (s : State) : Host.Outcome State Fault Refusal :=
  match decodeCommand c s.arg with
  | .ok i => exec i s
  | .error _ => .next (s.commandGate (State.raiseFault .illegalCmd))

/-- R210: SEQ's turn runs the micro-operation `upc` names. -/
def State.seqTurn (s : State) : Host.Outcome State Fault Refusal :=
  match decodeMicro s.upc with
  | .ok i => exec i s
  | .error _ => .fault .unreachableMicroState

/-- A HOST read of a window (R70). -/
def State.readWindow (win : Window) (off : Nat) (size : AccessSize) (s : State) : Host.Outcome State Fault Refusal :=
  match win with
  | .controller => s.readController off size
  | .timer => s.readTimer off size
  | .rcc r => s.readRcc r off size

/-- A HOST write to a window (R70). -/
def State.writeWindow (win : Window) (off : Nat) (size : AccessSize) (v : Word) (s : State) :
    Host.Outcome State Fault Refusal :=
  match win with
  | .controller => s.writeController off size v (s.issueCommand v)
  | .timer => s.writeTimer off size v
  | .rcc r => s.writeRcc r off size v

/-- A HOST read where `Config.platform` puts it. -/
def State.hostRead (place : Place) (size : AccessSize) (s : State) : Host.Outcome State Fault Refusal :=
  match place.locate Config.platform with
  | some (win, off) => s.readWindow win off size
  | none => .refused .otherHardware

/-- A HOST write where `Config.platform` puts it. -/
def State.hostWrite (place : Place) (size : AccessSize) (v : Word) (s : State) : Host.Outcome State Fault Refusal :=
  match place.locate Config.platform with
  | some (win, off) => s.writeWindow win off size v
  | none => .refused .otherHardware

/-- What one event does. -/
def act (e : Event) (s : State) : Host.Outcome State Fault Refusal :=
  match e with
  | .hostRead place size => s.hostRead place size
  | .hostWrite place size v => s.hostWrite place size v
  | .hostBit b v => .next (s.hostRcc b v)
  | .seq => s.seqTurn
  | .tim => s.timTurn
  | .env => .next s
  | .clkRun run => .next { s with clkRun := run }
  | .engReset => .next s.engineReset
  | .sysReset => .next s.systemReset

/-- The event the next step takes: the first placed one, or an event of the free schedule where none is placed. -/
def State.nextEvent (s : State) : Event :=
  match s.inputs with
  | e :: _ => e
  | [] => Config.schedule s.turn

/-- The state with that event taken off. -/
def State.afterFetch (s : State) : State :=
  match s.inputs with
  | _ :: rest => { s with inputs := rest }
  | [] => { s with turn := s.turn + 1 }

/-- `s` with an encoded instruction placed where the next step fetches it: a command word as the HOST's coming CMD write,
its operand in ARG; a micro-state code in upc, with SEQ's turn coming. -/
def State.place (e : Encoded) (s : State) : State :=
  match e with
  | .command c a => { s with arg := a, inputs := .hostWrite (.inWindow .controller cmdOff) .word c :: s.inputs }
  | .micro u => { s with upc := u, inputs := .seq :: s.inputs }

end Sys2Proof.Machine
end

