-- ==== Sys2Proof/Machine/Step.lean ====
section
/-!
DEFINITION. One step of the machine: one event of one agent (43_sequencer.md R210, 70_reset_and_hazards.md R316).
-/

namespace Sys2Proof.Machine

/-- Take the next event and do what it does. -/
def step (s : State) : Host.Outcome State Fault Refusal := act s.nextEvent s.afterFetch

/-- `s` with the instruction of `nbits` table bits `w` placed where `step` fetches its next instruction (entry 2). -/
def State.withFetchWord (s : State) (nbits w : Nat) : State := s.place (tableWord nbits w)

end Sys2Proof.Machine
end

