-- ==== Sys2Proof/Machine/HostAsm.lean ====
section
/-!
DEFINITION. The host's assembly forms (30_encoding.md R110, R111): the bus accesses a command line expands to, and the
completion test of `wait.idle`.
-/

namespace Sys2Proof.Machine

/-- R111: `wr CMD, v`. -/
def wrCmd (v : Word) : Event := .hostWrite (.inWindow .controller cmdOff) .word v

/-- R111: `wr ARG, v`. -/
def wrArg (v : Word) : Event := .hostWrite (.inWindow .controller argOff) .word v

/-- R111: `rd STAT`. -/
def rdStat : Event := .hostRead (.inWindow .controller statOff) .word

/-- R111: `rd ARG`. -/
def rdArg : Event := .hostRead (.inWindow .controller argOff) .word

/-- R111: `rd USPSC`. -/
def rdUsPsc : Event := .hostRead (.inWindow .controller usPscOff) .word

/-- R111: `rd MSPSC`. -/
def rdMsPsc : Event := .hostRead (.inWindow .controller msPscOff) .word

/-- R111: the accesses of a command line before its `wait.idle`. RELEASE leaves ARG unchanged (R110). A micro-operation
is no line of the host's. -/
def hostLine (i : Instr) : List Event :=
  match i, encode i with
  | .release, .command c _ => [wrCmd c]
  | _, .command c a => [wrArg a, wrCmd c]
  | _, .micro _ => []

/-- R111: `wait.idle` ends when the STAT word just read has bit 0 (BUSY) equal to 0. -/
def waitIdleDone (s : State) : Bool :=
  match s.hostData with
  | some w => !w.getLsbD 0
  | none => false

end Sys2Proof.Machine
end

