-- ==== Sys2Proof/Machine/Runs.lean ====
section
/-!
DEFINITION. Runs of the machine with a host program (30_encoding.md R111) and the free turns of the other agents
(70_reset_and_hazards.md R316): the weak fairness a model assumes for SEQ and TIM (60_exceptions.md R271, R316), and the
three ways a run ends (R320), the hang among them (R258). DESIGN CHOICE: the form of a host program (entry 26), how a
run counts that a refusal stops (entry 27), and how one counts that a reset meets (entry 28).
-/

namespace Sys2Proof.Machine

/-- One operation of the host's program. DESIGN CHOICE (entry 26): the spec leaves the host's program outside the machine
(R30); here it is a finite straight line of these operations, and none but `wait.idle` looks at what it read. -/
inductive HostOp
  /-- One read (R111: `rd`). -/
  | read (place : Place) (size : AccessSize)
  /-- One write (R111: `wr`). -/
  | write (place : Place) (size : AccessSize) (v : Word)
  /-- One atomic bit operation on a bit of the timer in an RCC register (R264). -/
  | bit (b : RccBit) (v : Bool)
  /-- `wait.idle` (R111): read STAT until its bit 0 is 0. -/
  | waitIdle
deriving DecidableEq, Repr

/-- The access one turn of an operation makes. -/
def HostOp.event : HostOp → Event
  | .read place size => .hostRead place size
  | .write place size v => .hostWrite place size v
  | .bit b v => .hostBit b v
  | .waitIdle => rdStat

/-- The operation issues a command: it is a write of a whole word to CMD (R72, R79). -/
def HostOp.issues : HostOp → Bool
  | .read _ _ => false
  | .write place size _ => size = .word && place.locate Config.platform = some (.controller, cmdOff)
  | .bit _ _ => false
  | .waitIdle => false

/-- R110, R111: a command line as operations, with its `wait.idle`. -/
def lineOps (i : Instr) : List HostOp :=
  match i, encode i with
  | .release, .command c _ => [.write (.inWindow .controller cmdOff) .word c, .waitIdle]
  | _, .command c a =>
    [.write (.inWindow .controller argOff) .word a, .write (.inWindow .controller cmdOff) .word c, .waitIdle]
  | _, .micro _ => []

/-- The machine beside the rest of its host program, a finite list with no branch on read data. DESIGN CHOICE (entry 26):
a host that branches on a STAT word, as P4 of 95_test_vectors.md does, is one list for each path it can take. -/
structure Run where
  /-- The machine. -/
  st : State
  /-- What the host has still to do. -/
  prog : List HostOp
  /-- Since its last CMD write the host has read a STAT word with BUSY = 0 and FAULT = 0 (R320). -/
  readDone : Bool
deriving DecidableEq, Repr

/-- One turn of one agent: HOST goes on with its program, or another event happens. -/
inductive Turn
  /-- HOST's turn (R277). -/
  | host
  /-- SEQ's turn (R210). -/
  | seq
  /-- TIM's turn (R265). -/
  | tim
  /-- ENV's turn (R275). -/
  | env
  /-- The platform starts or stops the timer's input clock (R59). -/
  | clkRun (run : Bool)
  /-- Engine reset (R300). -/
  | engReset
  /-- System reset (R301). -/
  | sysReset
deriving DecidableEq, Repr

/-- A HOST access after which `readDone` holds: a read of STAT that shows BUSY = 0 and FAULT = 0. A write to CMD ends it,
and any other event leaves it, a reset too (DESIGN CHOICE, entry 28). -/
def readDoneAfter (e : Event) (s : State) (before : Bool) : Bool :=
  match e with
  | .hostRead place _ =>
    if place.locate Config.platform = some (.controller, statOff) then !s.busy && !s.fault else before
  | .hostWrite place _ _ => if place.locate Config.platform = some (.controller, cmdOff) then false else before
  | .hostBit _ _ => before
  | .seq => before
  | .tim => before
  | .env => before
  | .clkRun _ => before
  | .engReset => before
  | .sysReset => before

/-- The rest of the program after a turn of its first operation that left `s` (R111: `wait.idle` goes on until it has read
BUSY = 0). -/
def progAfter (op : HostOp) (rest : List HostOp) (s : State) : List HostOp :=
  if op = .waitIdle ∧ waitIdleDone s = false then op :: rest else rest

/-- A run goes on where the machine does, with `k` of the state it goes on in; where the machine stops, the run has no next
place, and none of R320's three ends (DESIGN CHOICE, entry 27). -/
def goOn (k : State → Run) (o : Host.Outcome State Fault Refusal) : Host.Outcome Run Fault Refusal :=
  match o with
  | .next s => .next (k s)
  | .fault f => .fault f
  | .refused f => .refused f

/-- One turn of HOST: the first operation of its program makes its access; without a program HOST has no step. -/
def Run.hostTurn (r : Run) : Host.Outcome Run Fault Refusal :=
  match r.prog with
  | [] => .next r
  | op :: rest =>
    goOn (fun s => { st := s, prog := progAfter op rest s, readDone := readDoneAfter op.event s r.readDone })
      (act op.event r.st)

/-- An event of another agent. DESIGN CHOICE (entry 28): a reset leaves the host's program and `readDone` as they are. -/
def Run.otherTurn (e : Event) (r : Run) : Host.Outcome Run Fault Refusal := goOn (fun s => { r with st := s }) (act e r.st)

/-- One turn. -/
def Run.turn (t : Turn) (r : Run) : Host.Outcome Run Fault Refusal :=
  match t with
  | .host => r.hostTurn
  | .seq => r.otherTurn .seq
  | .tim => r.otherTurn .tim
  | .env => r.otherTurn .env
  | .clkRun run => r.otherTurn (.clkRun run)
  | .engReset => r.otherTurn .engReset
  | .sysReset => r.otherTurn .sysReset

/-! ## Infinite executions and fairness -/

/-- An infinite execution from `r`: the turn taken at each place, and the run before it. -/
structure Execution (r : Run) (turns : Nat → Turn) (runs : Nat → Run) : Prop where
  starts : runs 0 = r
  goesOn : ∀ k, (runs k).turn (turns k) = .next (runs (k + 1))

/-- R210: SEQ has an enabled step exactly when upc is neither IDLE nor FAULT. -/
def State.seqEnabled (s : State) : Bool := s.upc ≠ Upc.idle && s.upc ≠ Upc.fault

/-- Weak fairness of one agent (R316): where its step stays enabled from some place on, it is taken again. -/
def weaklyFair (enabled : Run → Bool) (move : Turn) (turns : Nat → Turn) (runs : Nat → Run) : Prop :=
  ∀ k, (∀ j, k ≤ j → enabled (runs j) = true) → ∃ j, k ≤ j ∧ turns j = move

/-- The fairness R316 and R271 say a model assumes: weak fairness for SEQ and for TIM. -/
structure Fair (turns : Nat → Turn) (runs : Nat → Run) : Prop where
  seq : weaklyFair (fun r => r.st.seqEnabled) .seq turns runs
  tim : weaklyFair (fun r => r.st.counting) .tim turns runs

/-- The host goes on with its program: what R320 takes for granted of a host that issues its last command (entry 22). -/
def hostGoesOn (turns : Nat → Turn) (runs : Nat → Run) : Prop := weaklyFair (fun r => !r.prog.isEmpty) .host turns runs

/-! ## How a run ends (R320) -/

/-- The host has issued its last command (R320): nothing it has still to do is one. Reads and other accesses may follow. -/
def Run.lastIssued (r : Run) : Bool := r.prog.all fun op => !op.issues

/-- R320, Finished: the host has issued its last command and has read BUSY = 0 with FAULT = 0. DESIGN CHOICE (entry 28): a
last command that a reset cut short was issued all the same. -/
def Run.finished (r : Run) : Bool := r.lastIssued && r.readDone && !r.st.busy && !r.st.fault

/-- R320, Faulted: FAULT = 1. DESIGN CHOICE (entry 28): a reset that clears FAULT ends it. -/
def Run.faulted (r : Run) : Bool := r.st.fault

/-- R320: where the end state is taken of a host program that did not wait: its last command is issued, and SEQ has reached
IDLE or FAULT. -/
def Run.settled (r : Run) : Bool := r.lastIssued && !r.st.seqEnabled

/-- R320, R258, Hang: an infinite fair execution with BUSY = 1 from some place on. -/
def hangs (r : Run) : Prop :=
  ∃ turns runs, Execution r turns runs ∧ Fair turns runs ∧ ∃ k, ∀ j, k ≤ j → (runs j).st.busy = true

/-- R258: what a claim that the program terminates says. Every infinite fair execution in which the host goes on comes to
a finished or a faulted run, so a hang of such a host refutes it. DESIGN CHOICE (entry 27): a run that a refusal or a fault
stops is no infinite execution and is not counted, so this speaks of the runs that go on, and holds vacuously of a host every
run of which is stopped; a claim that a program comes to its end says besides that no turn of it is refused. -/
def terminates (r : Run) : Prop :=
  ∀ turns runs, Execution r turns runs → Fair turns runs → hostGoesOn turns runs →
    ∃ k, (runs k).finished = true ∨ (runs k).faulted = true

end Sys2Proof.Machine
end

