-- ==== Sys2Proof/Safety.lean ====
section
/-!
DEFINITION. The terms in which claims about TCPE are stated: runs of several steps, the tick counts of 60_exceptions.md
R270, the chunk lists of 41_delay.md R168, and the invariants of 43_sequencer.md R229 and 40_lifecycle.md R143.
-/

namespace Sys2Proof.Machine

/-- `k` steps, stopping at the first fault or refusal. -/
def runFor : Nat → State → Host.Outcome State Fault Refusal
  | 0, s => .next s
  | k + 1, s =>
    match step s with
    | .next s' => runFor k s'
    | .fault r => .fault r
    | .refused r => .refused r

/-- What fault entry leaves (R251), written out: FAULT, FCODE, BUSY and upc change and nothing else does. -/
def State.faultedWith (code : BitVec 4) (s : State) : State :=
  { s with fault := true, fcode := code, busy := false, upc := 0x3F#8 }

/-- The instruction is a HOST command, not a micro-operation (R100). -/
def isCommand (i : Instr) : Bool :=
  match encode i with
  | .command _ _ => true
  | .micro _ => false

/-- The delay command of a unit and an operand width (R103). -/
def delayInstr : DelayUnit → OperandWidth → Word → Instr
  | .ms, .w8, n => .delayMs8 n
  | .ms, .w16, n => .delayMs16 n
  | .ms, .w32, n => .delayMs32 n
  | .us, .w8, n => .delayUs8 n
  | .us, .w16, n => .delayUs16 n
  | .us, .w32, n => .delayUs32 n

/-- R103: the opcode of a delay command, field by field: OPC[7:4] = 0b0001, OPC[3] = U, OPC[2] = 0, OPC[1:0] = W. -/
def delayOpcode (u : DelayUnit) (w : OperandWidth) : Byte :=
  0b0001#4 ++ (match u with | .ms => 0#1 | .us => 1#1) ++ 0#1 ++
    (match w with | .w8 => 0b00#2 | .w16 => 0b01#2 | .w32 => 0b10#2)

/-- R106: an illegal command word `c` with the ARG value `a`, by the values of its fields. -/
def illegalWord (c a : Word) : Prop :=
  512 ≤ c.toNat ∨
  c.toNat % 256 ∉ [0x01, 0x02, 0x10, 0x11, 0x12, 0x18, 0x19, 0x1A] ∨
  (c.toNat / 256 % 2 = 1 ∧ c.toNat % 256 ≠ 0x01) ∨
  (c.toNat % 256 ∈ [0x10, 0x18] ∧ 256 ≤ a.toNat) ∨
  (c.toNat % 256 ∈ [0x11, 0x19] ∧ 65536 ≤ a.toNat)

/-- R254: the command of word `c` does not fit the lifecycle state. -/
def lifecycleMismatch (c : Word) (s : State) : Prop :=
  (c.toNat % 256 = 0x01 ∧ s.life = true) ∨ (c.toNat % 256 ≠ 0x01 ∧ s.life = false)

/-- R256: INIT with f_eff of 2^32 or more. -/
def outOfDomain (c : Word) (s : State) : Prop :=
  c.toNat % 256 = 0x01 ∧ 2 ^ 32 ≤ fEff s.params s.arg (decide (c.toNat / 256 % 2 = 1))

/-- R270: T(n), the ticks from a start with TIM.CNT = n until UIF is first set. -/
def expiryTicks (p : Params) (n : Half) : Nat := if p.updateOnZero then max n.toNat 1 else n.toNat + 1

/-- `k` ticks of the counter. -/
def ticks (p : Params) : Nat → Timer → Timer
  | 0, t => t
  | k + 1, t => ticks p k (t.tick p)

/-- R168: C(n), the number of chunks of a delay of magnitude `n`. -/
def chunkCount (n : Nat) : Nat := if n = 0 then 1 else ceilDiv n 65535

/-- R168: the durations of the chunks of a delay of magnitude `n`. -/
def chunkDurations (n : Nat) : List Nat :=
  List.replicate (chunkCount n - 1) 65535 ++ [n - 65535 * (chunkCount n - 1)]

/-- R193: the turns of a repetition whose countdown gets `k` input cycles: UIF_CLR, CNT_WR and CEN_SET, the cycles, then one
poll and CEN_CLR. -/
def repetitionTurns (k : Nat) : List Event := List.replicate 3 .seq ++ List.replicate k .tim ++ [.seq, .seq]

/-- R190: the turns of a chunk, with the input cycles of each of its repetitions: CHUNK and PSC_WR, then the repetitions. -/
def chunkTurns (ks : List Nat) : List Event := [.seq, .seq] ++ ks.flatMap repetitionTurns

/-- R227: the turns of a delay after its accept, with the input cycles of each repetition of each chunk. -/
def delayTurns (kss : List (List Nat)) : List Event := kss.flatMap chunkTurns

/-- R270, R317: `k` input cycles let a countdown from `dur` expire at divisor value `v`, whatever its phase. -/
def enoughCycles (p : Params) (dur : Nat) (v : Half) (k : Nat) : Prop :=
  expiryTicks p (BitVec.ofNat 16 dur) * divisor p v ≤ k

/-- The durations that CHUNK produces, one micro-operation after another, until LAST = 1; at most `fuel` of them. -/
def chunkList : Nat → State → List Nat
  | 0, _ => []
  | fuel + 1, s =>
    match exec .uopChunk s with
    | .next s' => s'.dur.toNat :: (if s'.last then [] else chunkList fuel s')
    | .fault _ => []
    | .refused _ => []

/-- The micro-states of a running delay command (R229 (c)). -/
def delayStates : List Byte :=
  [Upc.chunk, Upc.pscWr, Upc.uifClr, Upc.cntWr, Upc.cenSet, Upc.uifPoll, Upc.cenClr]

/-- The micro-states inside a repetition (R193). -/
def repetitionStates : List Byte := [Upc.uifClr, Upc.cntWr, Upc.cenSet, Upc.uifPoll, Upc.cenClr]

/-- The micro-states in which an INIT command is running (R227). -/
def State.initRunning (s : State) : Prop :=
  s.upc ∈ [Upc.enSet, Upc.dirDown, Upc.calc] ∨ (s.upc ∈ [Upc.rstSet, Upc.rstClr] ∧ s.cop = 0x01#8)

/-- The controller part of R229: (a), (b), (f), LIFE = 1 while a delay runs (part of (c)), upc in the table of R109
(R37), and REP < REPS inside a repetition. -/
structure ControlInv (s : State) : Prop where
  idle_iff : (s.busy = false ∧ s.fault = false) ↔ s.upc = Upc.idle
  fault_iff : s.fault = true ↔ s.upc = Upc.fault
  fault_not_busy : s.fault = true → s.busy = false
  upc_in_table : s.upc ∈ microStates
  init_states : s.upc ∈ [Upc.enSet, Upc.dirDown, Upc.calc] → s.cop = 0x01#8 ∧ s.life = true
  pulse_states : s.upc ∈ [Upc.rstSet, Upc.rstClr] → (s.cop = 0x01#8 ∨ s.cop = 0x02#8) ∧ s.life = true
  release_state : s.upc = Upc.enClr → s.cop = 0x02#8 ∧ s.life = true
  delay_owned : s.upc ∈ delayStates → s.life = true
  repetition : s.upc ∈ repetitionStates → s.rep.toNat < s.reps.toNat

/-- The timer part of R229 for a state in which no OWNERSHIP fault is recorded: the clock, the reset bit and the direction
of a delay (c), the same for an idle owned timer and for INIT's own steps, and where the counter can be enabled (d), also
for a timer that HOST has started or that an engine reset has left counting: owned and not faulted, it is stopped by INIT's
reset pulse. -/
structure OwnedInv (s : State) : Prop where
  timer_ready : s.upc ∈ delayStates ∨ s.upc = Upc.calc ∨ (s.upc = Upc.idle ∧ s.life = true) →
    s.rccEn = true ∧ s.rccRst = false ∧ s.tim.dir = true
  pulse_clocked : s.upc ∈ [Upc.rstSet, Upc.rstClr] ∧ s.cop = 0x01#8 → s.rccEn = true
  direction_clocked : s.upc = Upc.dirDown → s.rccEn = true ∧ s.rccRst = false
  counting_states : s.life = true → s.fault = false → s.tim.cen = true →
    s.upc ∈ [Upc.uifPoll, Upc.cenClr, Upc.enSet, Upc.rstSet]

/-- R229 (d), word for word, with the cause of a fault that leaves the counter running, for a state in which no
OWNERSHIP fault is recorded, no engine reset has cut a command short, and HOST has not used the timer itself. -/
structure StoppedInv (s : State) : Prop where
  cen_states : s.tim.cen = true → s.upc ∈ [Upc.uifPoll, Upc.cenClr] ∨ s.fault = true
  cen_fault : s.tim.cen = true → s.fault = true → s.fcode = faultCode .cmdWhileBusy

/-- R229 (e), word for word: LIFE = 0 only with CEN = 0, with FAULT = 1, or after HOST has used the timer itself. -/
def ReleasedInv (s : State) : Prop :=
  s.life = false → s.tim.cen = false ∨ s.fault = true ∨ s.hostUsed = true

/-- The invariant of R229: (a), (b) and (f) in every state; (c) where no OWNERSHIP fault is recorded; (d) and (e) where
besides no engine reset has cut a command short, (d) for a timer HOST has not used itself (entry 25). -/
def SequencerInv (s : State) : Prop :=
  ControlInv s ∧ (s.ownership = false → OwnedInv s) ∧
    (s.ownership = false → s.cutShort = false → ReleasedInv s ∧ (s.hostUsed = false → StoppedInv s))

/-- R272 and R52: a timer in reset holds its reset values, and without preload PSC_SH equals PSC. -/
def TimerInv (s : State) : Prop :=
  (s.rccRst = true → s.tim = Timer.atReset s.params) ∧ (s.params.pscPreload = false → s.tim.pscSh = s.tim.psc)

/-- R143 and D39: the cached prescalers, the running INIT's frequency, the running delay's prescaler and its split. -/
structure PrescalerInv (s : State) : Prop where
  us_bound : s.usPsc.toNat ≤ 4295
  ms_bound : s.msPsc.toNat ≤ 4294968
  init_domain : s.initRunning → fEff s.params s.n s.cdiv1 < 2 ^ 32
  delay_bound : s.upc ∈ delayStates → s.p.toNat ≤ 4294968
  reps_split : s.upc ∈ repetitionStates → s.reps = splitReps s.p ∧ s.reps.toNat ≤ 66

end Sys2Proof.Machine
end

