-- ==== Sys2Proof/Certificates/Slice0/Obligations.lean ====
section
/-!
DEFINITION. The statements for the provers, from the numbered rules of spec/. Where a statement rests on a choice of the
model, its docstring names the log entry.
-/

open Sys2Proof Sys2Proof.Machine

/-! ## Encoding and decoding -/

/-- Every well-formed instruction, with every operand its encoding admits, decodes back from its encoding (R101 to R104,
R107, R109). -/
def Obligations.DecodeOfEncodeIsIdentity : Prop :=
  ∀ i : Instr, i.wellFormed = true → decode (encode i) = .ok i

/-- What the decoder reads is well formed, and the encoder gives back what was read; RELEASE leaves ARG unused (R104), so
there only the command word comes back. -/
def Obligations.EncodeOfDecodeIsIdentity : Prop :=
  ∀ (x : Encoded) (i : Instr), decode x = .ok i →
    i.wellFormed = true ∧ (i ≠ .release → encode i = x) ∧ (i = .release → ∃ a, x = .command 0x00000002#32 a)

/-- The decoder refuses a command word and ARG value exactly when R106 calls them illegal (R107). -/
def Obligations.DecoderRefusesExactlyIllegalWords : Prop :=
  ∀ c a : Word, (∃ e, decodeCommand c a = .error e) ↔ illegalWord c a

/-- The worked encodings and illegal inputs of R112, and words written out from the tables of R101, R102 and R109. The
table gives a HOST row no ARG bits, and ARG = 0 there is the model's choice: entry 24. -/
def Obligations.WorkedEncodings : Prop :=
  hostLine (.init (BitVec.ofNat 32 84000000) false) = [wrArg 0x0501BD00#32, wrCmd 0x00000001#32] ∧
  hostLine (.init (BitVec.ofNat 32 8000000) true) = [wrArg 0x007A1200#32, wrCmd 0x00000101#32] ∧
  hostLine (.delayMs32 (BitVec.ofNat 32 70000)) = [wrArg 0x00011170#32, wrCmd 0x00000012#32] ∧
  hostLine (.delayUs16 (BitVec.ofNat 32 1000)) = [wrArg 0x000003E8#32, wrCmd 0x00000019#32] ∧
  decodeCommand 0x00000010#32 0x100#32 = .error .operandTooWide ∧
  (∀ a, decodeCommand 0x00000102#32 a = .error .div1OutsideInit) ∧
  (∀ a, decodeCommand 0x00000013#32 a = .error .unassignedOpcode) ∧
  decodeTableWord 32 0b00000000000000000000000100000001 = some (.init 0#32 true) ∧
  decodeTableWord 32 0b00000000000000000000000000000010 = some .release ∧
  decodeTableWord 32 0b00000000000000000000000000010001 = some (.delayMs16 0#32) ∧
  decodeTableWord 32 0b00000000000000000000000000011010 = some (.delayUs32 0#32) ∧
  decodeTableWord 8 0b00000101 = some .uopDirDown ∧
  decodeTableWord 8 0b00010110 = some .uopCenClr ∧
  decodeTableWord 8 0b00010111 = none

/-! ## The step -/

/-- A HOST write of a command word that, with ARG as it is, decodes to `i` makes the step run `i` (R212, R72), once the
event is taken off the placed events. -/
def Obligations.StepRunsDecodedCommand : Prop :=
  ∀ (s : State) (c : Word) (i : Instr) (rest : List Event),
    s.inputs = wrCmd c :: rest → decodeCommand c s.arg = .ok i → step s = exec i { s with inputs := rest }

/-- SEQ's turn runs the micro-operation that upc names (R210, R227), once the event is taken off the placed events. -/
def Obligations.StepRunsDecodedMicroOp : Prop :=
  ∀ (s : State) (i : Instr) (rest : List Event),
    s.inputs = .seq :: rest → decodeMicro s.upc = .ok i → step s = exec i { s with inputs := rest }

/-! ## Command accept and faults -/

/-- INIT is accepted when idle, released and in domain, and RELEASE when idle and owned: LIFE, BUSY, COP, N, CDIV1 and upc as
R130, R146 and R212 say, and nothing else changes. -/
def Obligations.LifecycleCommandsAccepted : Prop :=
  ∀ s : State, s.fault = false → s.busy = false →
    (s.life = false → ∀ (pclk : Word) (div1 : Bool), fEff s.params pclk div1 < 2 ^ 32 →
      exec (.init pclk div1) s = .next { s with
        life := true, busy := true, cop := 0x01#8, n := pclk, cdiv1 := div1, upc := 0x01#8 }) ∧
    (s.life = true → exec .release s = .next { s with busy := true, cop := 0x02#8, upc := 0x02#8 })

/-- Each of the six delay commands is accepted when idle and owned with an operand in range: BUSY, COP, N, P and upc as R160
says, and nothing else changes. The opcode is the one whose fields R103 gives. -/
def Obligations.DelayAccepted : Prop :=
  ∀ (u : DelayUnit) (w : OperandWidth) (n : Word) (s : State),
    s.fault = false → s.busy = false → s.life = true → w.admits n = true →
    exec (delayInstr u w n) s = .next { s with
      busy := true, cop := delayOpcode u w, n := n, p := (match u with | .ms => s.msPsc | .us => s.usPsc),
      upc := 0x10#8 }

/-- A command while FAULT = 1 is ignored (R259, R262), and one while BUSY = 1 is CMD_WHILE_BUSY (R253), for each of the
eight commands. -/
def Obligations.CommandTurnedAway : Prop :=
  ∀ (i : Instr) (s : State), isCommand i = true →
    (s.fault = true → exec i s = .next s) ∧
    (s.fault = false → s.busy = true → exec i s = .next (s.faultedWith 1#4))

/-- LIFECYCLE: INIT while LIFE = 1; RELEASE or a delay while LIFE = 0 (R254). -/
def Obligations.LifecycleMismatchFaults : Prop :=
  ∀ s : State, s.fault = false → s.busy = false →
    (s.life = true → ∀ pclk div1, exec (.init pclk div1) s = .next (s.faultedWith 2#4)) ∧
    (s.life = false → exec .release s = .next (s.faultedWith 2#4)) ∧
    (s.life = false → ∀ u w n, OperandWidth.admits w n = true →
      exec (delayInstr u w n) s = .next (s.faultedWith 2#4))

/-- DOMAIN: INIT, otherwise acceptable, with f_eff of 2^32 or more (R256). -/
def Obligations.OutOfDomainInitFaults : Prop :=
  ∀ (pclk : Word) (div1 : Bool) (s : State),
    s.fault = false → s.busy = false → s.life = false → 2 ^ 32 ≤ fEff s.params pclk div1 →
    exec (.init pclk div1) s = .next (s.faultedWith 4#4)

/-- ILLEGAL_CMD: an illegal command word, or an 8- or 16-bit operand with high bits set, whatever LIFE is (R255, R259). That a
delay term with such an operand, which the decoder never yields, has the same fault is the model's choice: entry 23. -/
def Obligations.IllegalCommandFaults : Prop :=
  ∀ s : State, s.fault = false → s.busy = false →
    (∀ c, illegalWord c s.arg → act (wrCmd c) s = .next (s.faultedWith 3#4)) ∧
    (∀ u w n, OperandWidth.admits w n = false → exec (delayInstr u w n) s = .next (s.faultedWith 3#4))

/-- The priority of R259 over every CMD write in every state: exactly the first check that applies decides, and a write to
which none applies is accepted. -/
def Obligations.CommandWriteReportsFirstFault : Prop :=
  ∀ (c : Word) (s : State), ∃ t, act (wrCmd c) s = .next t ∧
    (s.fault = true → t = s) ∧
    (s.fault = false → s.busy = true → t = s.faultedWith 1#4) ∧
    (s.fault = false → s.busy = false → illegalWord c s.arg → t = s.faultedWith 3#4) ∧
    (s.fault = false → s.busy = false → ¬ illegalWord c s.arg → lifecycleMismatch c s → t = s.faultedWith 2#4) ∧
    (s.fault = false → s.busy = false → ¬ illegalWord c s.arg → ¬ lifecycleMismatch c s → outOfDomain c s →
      t = s.faultedWith 4#4) ∧
    (s.fault = false → s.busy = false → ¬ illegalWord c s.arg → ¬ lifecycleMismatch c s → ¬ outOfDomain c s →
      t.fault = false ∧ t.fcode = s.fcode ∧ t.busy = true ∧ t.life = true)

/-- Faults are raised only in the HOST's CMD write (R251): an event that sets FAULT is one. -/
def Obligations.OnlyCommandWritesFault : Prop :=
  ∀ (e : Event) (s t : State), act e s = .next t → s.fault = false → t.fault = true → ∃ c, e.isCommand c

/-- FAULT is sticky (R33, R261): only a reset clears FAULT or changes FCODE, for every event in every state. -/
def Obligations.FaultClearsOnlyAtReset : Prop :=
  ∀ (e : Event) (s t : State), act e s = .next t → s.fault = true → e ≠ .engReset → e ≠ .sysReset →
    t.fault = true ∧ t.fcode = s.fcode

/-! ## Micro-operations -/

/-- IDLE and FAULT have no step (R211, R226): SEQ's turn changes nothing. -/
def Obligations.IdleAndFaultHaveNoStep : Prop :=
  ∀ s : State, exec .uopIdle s = .next s ∧ exec .uopFault s = .next s

/-- EN_SET (R213) and EN_CLR (R216). -/
def Obligations.ClockGateEffect : Prop :=
  ∀ s : State,
    exec .uopEnSet s = .next { s with rccEn := true, upc := 0x02#8, busTrace := .atomicSet .en :: s.busTrace } ∧
    exec .uopEnClr s = .next { s with
      rccEn := false, life := false, busy := false, upc := 0x00#8, busTrace := .atomicClear .en :: s.busTrace }

/-- RST_SET (R214): the reset bit is set, and every timer register takes the value it holds in reset (R272). -/
def Obligations.RstSetEffect : Prop :=
  ∀ s : State, exec .uopRstSet s = .next { s with
    rccRst := true, upc := 0x03#8, busTrace := .atomicSet .rst :: s.busTrace,
    tim := { cen := false, dir := false, uif := false, cnt := 0#16, psc := 0#16, pscSh := 0#16,
             arr := s.params.arrReset, pcnt := 0#17 } }

/-- RST_CLR (R215): the reset bit is cleared and COP chooses the successor, DIR_DOWN for INIT's and EN_CLR for RELEASE's. -/
def Obligations.RstClrEffect : Prop :=
  ∀ s : State,
    (s.cop = 0x01#8 → exec .uopRstClr s = .next { s with
      rccRst := false, upc := 0x05#8, busTrace := .atomicClear .rst :: s.busTrace }) ∧
    (s.cop = 0x02#8 → exec .uopRstClr s = .next { s with
      rccRst := false, upc := 0x04#8, busTrace := .atomicClear .rst :: s.busTrace })

/-- The three micro-ops that only write one timer register (R78): DIR_DOWN (R217), CR1 <- DIR; UIF_CLR (R221), UIF <- 0 by the
word with only the UIF bit 0; CNT_WR (R222), CNT <- DUR. A timer that is gated or in reset ignores the write (R93). -/
def Obligations.TimerWriteMicroOpEffects : Prop :=
  ∀ s : State, ∃ dur : Word, dur.toNat = s.dur.toNat ∧
    (s.rccEn = true → s.rccRst = false →
      exec .uopDirDown s = .next { s with
        tim := { s.tim with dir := true, cen := false }, upc := 0x06#8,
        busTrace := .memWrite .cr1 (1#32 <<< s.params.dirBit.val) :: s.busTrace } ∧
      exec .uopUifClr s = .next { s with
        tim := { s.tim with uif := false }, upc := 0x13#8,
        busTrace := .memWrite .sr (~~~(1#32 <<< s.params.uifBit.val)) :: s.busTrace } ∧
      exec .uopCntWr s = .next { s with
        tim := { s.tim with cnt := s.dur }, upc := 0x14#8, busTrace := .memWrite .cnt dur :: s.busTrace }) ∧
    (s.rccEn = false ∨ s.rccRst = true →
      exec .uopDirDown s = .next { s with
        upc := 0x06#8, busTrace := .memWrite .cr1 (1#32 <<< s.params.dirBit.val) :: s.busTrace } ∧
      exec .uopUifClr s = .next { s with
        upc := 0x13#8, busTrace := .memWrite .sr (~~~(1#32 <<< s.params.uifBit.val)) :: s.busTrace } ∧
      exec .uopCntWr s = .next { s with upc := 0x14#8, busTrace := .memWrite .cnt dur :: s.busTrace })

/-- CALC (R218): f_eff is N times the multiplier R138 gives, case by case, for both values of TIMCLK_DOUBLE_WHEN_DIV1; the
two prescalers are the exact ceilings of R139 and R140 for every N and CDIV1 (no wrap in 32 bits), BUSY <- 0, and nothing
else changes. -/
def Obligations.CalcEffect : Prop :=
  (∀ (p : Params) (pclk : Word),
    (p.timclkDoubleWhenDiv1 = true → fEff p pclk true = pclk.toNat * 2 ∧ fEff p pclk false = pclk.toNat * 1) ∧
    (p.timclkDoubleWhenDiv1 = false → fEff p pclk true = pclk.toNat * 1 ∧ fEff p pclk false = pclk.toNat * 2) ∧
    ∀ div1, fEff p pclk div1 ≤ 2 ^ 33 - 2) ∧
  ∀ s : State, ∃ us ms : Word,
    exec .uopCalc s = .next { s with usPsc := us, msPsc := ms, busy := false, upc := 0x00#8 } ∧
    us.toNat = (fEff s.params s.n s.cdiv1 + 999999) / 1000000 ∧
    ms.toNat = (fEff s.params s.n s.cdiv1 + 999) / 1000

/-- CHUNK (R219, R167). -/
def Obligations.ChunkEffect : Prop :=
  ∀ s : State,
    (0xFFFF < s.n.toNat → ∃ n', n'.toNat = s.n.toNat - 0xFFFF ∧
      exec .uopChunk s = .next { s with dur := 0xFFFF#16, n := n', last := false, upc := 0x11#8 }) ∧
    (s.n.toNat ≤ 0xFFFF → ∃ d, d.toNat = s.n.toNat ∧
      exec .uopChunk s = .next { s with dur := d, n := 0#32, last := true, upc := 0x11#8 })

/-- PSC_WR (R220, R191, R268): REPS, PREG and REP, the PSC write with PREG zero-extended, and PSC_SH in the same step
without preload; the timer part is ignored while it is gated or in reset (R93). -/
def Obligations.PscWrEffect : Prop :=
  ∀ s : State, ∃ (reps : BitVec 17) (preg : BitVec 16) (w : Word),
    reps.toNat = s.p.toNat / 65536 + 1 ∧ preg.toNat = s.p.toNat % 65536 ∧ w.toNat = preg.toNat ∧
    (s.rccEn = true → s.rccRst = false → exec .uopPscWr s = .next { s with
      reps := reps, preg := preg, rep := 0#17, upc := 0x12#8, busTrace := .memWrite .psc w :: s.busTrace,
      tim := { s.tim with psc := preg, pscSh := if s.params.pscPreload then s.tim.pscSh else preg } }) ∧
    (s.rccEn = false ∨ s.rccRst = true → exec .uopPscWr s = .next { s with
      reps := reps, preg := preg, rep := 0#17, upc := 0x12#8, busTrace := .memWrite .psc w :: s.busTrace })


/-- CEN_SET (R223, R267): CEN <- 1 with DIR 1, and PCNT takes some value below D(PSC_SH), whichever the free draw is. A
start that the timer ignores draws nothing: the model's choice, entry 9. -/
def Obligations.CenSetEffect : Prop :=
  ∀ s : State,
    (s.rccEn = true → s.rccRst = false →
      ∃ k : Count, k.toNat < divisor s.params s.tim.pscSh ∧ exec .uopCenSet s = .next { s with
        tim := { s.tim with dir := true, cen := true, pcnt := k }, upc := 0x15#8, draws := s.draws + 1,
        busTrace := .memWrite .cr1 (1#32 <<< s.params.dirBit.val ||| 1#32 <<< s.params.cenBit.val) :: s.busTrace }) ∧
    (s.rccEn = false ∨ s.rccRst = true → exec .uopCenSet s = .next { s with
      upc := 0x15#8,
      busTrace := .memWrite .cr1 (1#32 <<< s.params.dirBit.val ||| 1#32 <<< s.params.cenBit.val) :: s.busTrace })

/-- UIF_POLL (R224, R194, R93): one read of SR without side effect; CEN_CLR when it reads UIF = 1, itself when it reads 0,
which it also does of a timer that is gated or in reset. -/
def Obligations.UifPollEffect : Prop :=
  ∀ s : State,
    (s.rccEn = true → s.rccRst = false → s.tim.uif = true →
      exec .uopUifPoll s = .next { s with upc := 0x16#8, busTrace := .memRead .sr :: s.busTrace }) ∧
    (s.rccEn = false ∨ s.rccRst = true ∨ s.tim.uif = false →
      exec .uopUifPoll s = .next { s with upc := 0x15#8, busTrace := .memRead .sr :: s.busTrace })

/-- CEN_CLR (R225): CEN <- 0 (ignored by a timer that is gated or in reset, R93), REP <- REP + 1, and the successor by the new
REP and LAST, with BUSY <- 0 at the end of the command. -/
def Obligations.CenClrEffect : Prop :=
  ∀ s : State, s.rep.toNat < s.reps.toNat → ∃ rep' tim', rep'.toNat = s.rep.toNat + 1 ∧
    (s.rccEn = true → s.rccRst = false → tim' = { s.tim with dir := true, cen := false }) ∧
    (s.rccEn = false ∨ s.rccRst = true → tim' = s.tim) ∧
    (rep'.toNat < s.reps.toNat → exec .uopCenClr s = .next { s with
      tim := tim', rep := rep', upc := 0x12#8,
      busTrace := .memWrite .cr1 (1#32 <<< s.params.dirBit.val) :: s.busTrace }) ∧
    (rep' = s.reps → s.last = false → exec .uopCenClr s = .next { s with
      tim := tim', rep := rep', upc := 0x10#8,
      busTrace := .memWrite .cr1 (1#32 <<< s.params.dirBit.val) :: s.busTrace }) ∧
    (rep' = s.reps → s.last = true → exec .uopCenClr s = .next { s with
      tim := tim', rep := rep', upc := 0x00#8, busy := false,
      busTrace := .memWrite .cr1 (1#32 <<< s.params.dirBit.val) :: s.busTrace })

/-- The MODEL's choice (entries 16, 17), for states that no run reaches: RST_CLR with a COP that is neither INIT's nor
RELEASE's, and CEN_CLR with REP at REPS or past it, do the rest of what R215 and R225 say, and the next micro-state is the
free draw among those of R109. The REP that leaves its 17 bits is a free draw too, and the successor follows from it. -/
def Obligations.UnstatedSuccessorsAreFree : Prop :=
  ∀ s : State,
    (s.cop ≠ 0x01#8 → s.cop ≠ 0x02#8 → exec .uopRstClr s = .next { s with
      rccRst := false, busTrace := .atomicClear .rst :: s.busTrace, draws := s.draws + 1,
      upc := microStates.getD (Config.draw s.draws % 15) 0x00#8 }) ∧
    (s.reps.toNat ≤ s.rep.toNat → ∃ tim',
      (s.rccEn = true → s.rccRst = false → tim' = { s.tim with dir := true, cen := false }) ∧
      (s.rccEn = false ∨ s.rccRst = true → tim' = s.tim) ∧
      (s.rep ≠ 0x1FFFF#17 → ∃ rep', rep'.toNat = s.rep.toNat + 1 ∧ exec .uopCenClr s = .next { s with
        tim := tim', rep := rep', busTrace := .memWrite .cr1 (1#32 <<< s.params.dirBit.val) :: s.busTrace,
        draws := s.draws + 1, upc := microStates.getD (Config.draw s.draws % 15) 0x00#8 }) ∧
      (s.rep = 0x1FFFF#17 → ∃ rep' d u b, rep' = BitVec.ofNat 17 (Config.draw s.draws) ∧
        exec .uopCenClr s = .next { s with
          tim := tim', rep := rep', busTrace := .memWrite .cr1 (1#32 <<< s.params.dirBit.val) :: s.busTrace,
          draws := d, upc := u, busy := b } ∧
        (rep'.toNat < s.reps.toNat → u = 0x12#8 ∧ b = s.busy) ∧
        (rep' = s.reps → s.last = false → u = 0x10#8 ∧ b = s.busy) ∧
        (rep' = s.reps → s.last = true → u = 0x00#8 ∧ b = false) ∧
        (s.reps.toNat < rep'.toNat → u = microStates.getD (Config.draw (s.draws + 1) % 15) 0x00#8 ∧ b = s.busy)))

/-! ## Arithmetic of the prescalers and the split -/

/-- R141: both cached prescalers of a CALC are rounded upward, and never further than needed. -/
def Obligations.PrescalersRoundUp : Prop :=
  ∀ s t : State, exec .uopCalc s = .next t →
    fEff s.params s.n s.cdiv1 ≤ t.usPsc.toNat * 1000000 ∧ fEff s.params s.n s.cdiv1 ≤ t.msPsc.toNat * 1000 ∧
    (0 < fEff s.params s.n s.cdiv1 →
      (t.usPsc.toNat - 1) * 1000000 < fEff s.params s.n s.cdiv1 ∧
      (t.msPsc.toNat - 1) * 1000 < fEff s.params s.n s.cdiv1) ∧
    (fEff s.params s.n s.cdiv1 % 1000000 = 0 → t.usPsc.toNat * 1000000 = fEff s.params s.n s.cdiv1)

/-- R198, R199: the microsecond prescaler never splits, and the millisecond prescaler splits exactly above 65,535,000 Hz,
for every frequency in the domain of R143. -/
def Obligations.MillisecondSplitThreshold : Prop :=
  ∀ f : Nat, f < 2 ^ 32 →
    (splitReps (usPrescaler f) = 1#17 ∧ (splitPreg (usPrescaler f)).toNat = (usPrescaler f).toNat) ∧
    (2 ≤ (splitReps (msPrescaler f)).toNat ↔ 65535000 < f)

/-- R197: on the split path, with the default PSC_PLUS_ONE = false, the cycles per duration tick REPS * D(PREG) fall
short of P. -/
def Obligations.SplitPathRunsShort : Prop :=
  ∀ (p : Params) (v : Word), p.pscPlusOne = false → 65536 ≤ v.toNat →
    (splitReps v).toNat * divisor p (splitPreg v) < v.toNat

/-- R168, R169: the chunks of a delay of magnitude N are C(N) - 1 full chunks and a last one of the rest; they add up to N,
the last lies in [1, 65535] when N is not 0, and a chunk of 0 occurs only when N = 0. -/
def Obligations.ChunksDecomposeDelay : Prop :=
  ∀ (s : State) (fuel : Nat), chunkCount s.n.toNat ≤ fuel →
    chunkList fuel s = List.replicate (chunkCount s.n.toNat - 1) 65535 ++
      [s.n.toNat - 65535 * (chunkCount s.n.toNat - 1)] ∧
    (chunkList fuel s).sum = s.n.toNat ∧
    (0 < s.n.toNat → 1 ≤ s.n.toNat - 65535 * (chunkCount s.n.toNat - 1) ∧
      s.n.toNat - 65535 * (chunkCount s.n.toNat - 1) ≤ 65535) ∧
    (0 ∈ chunkList fuel s ↔ s.n.toNat = 0)

/-! ## The timer unit -/

/-- R266 and R269: the tick divisor, and one counter tick with DIR = 1, case by case; update sets UIF and, with preload, loads
PSC_SH. -/
def Obligations.DivisorAndCounterTick : Prop :=
  (∀ (p : Params) (v : Half),
    (p.pscPlusOne = true → divisor p v = v.toNat + 1) ∧ (p.pscPlusOne = false → divisor p v = max v.toNat 1) ∧
    1 ≤ divisor p v ∧ divisor p v ≤ 65536) ∧
  (∀ (p : Params) (t : Timer),
    (p.updateOnZero = true → t.cnt.toNat = 1 → t.tick p = { t with
      cnt := 0#16, uif := true, pscSh := if p.pscPreload then t.psc else t.pscSh }) ∧
    (t.cnt.toNat = 0 → t.tick p = { t with
      cnt := t.arr, uif := true, pscSh := if p.pscPreload then t.psc else t.pscSh }) ∧
    ((p.updateOnZero = true → 2 ≤ t.cnt.toNat) → 1 ≤ t.cnt.toNat → ∃ c, c.toNat = t.cnt.toNat - 1 ∧
      t.tick p = { t with cnt := c }))

/-- R271, R267: TIM's turn changes nothing unless the counting condition holds; where it holds with DIR = 1, PCNT counts on
below D - 1 and otherwise wraps with one tick. Where it holds with DIR = 0 the step has no meaning (R273). That it is then
refused, as R273 says a model may, is the model's choice, entry 15, and that a turn without a step leaves the state as it is
is the model's form of it, entry 18. -/
def Obligations.TimerTurn : Prop :=
  ∀ s : State,
    (s.clkRun = false ∨ s.rccEn = false ∨ s.rccRst = true ∨ s.tim.cen = false → act .tim s = .next s) ∧
    (s.clkRun = true → s.rccEn = true → s.rccRst = false → s.tim.cen = true → s.tim.dir = true →
      (s.tim.pcnt.toNat + 1 < divisor s.params s.tim.pscSh → ∃ c, c.toNat = s.tim.pcnt.toNat + 1 ∧
        act .tim s = .next { s with tim := { s.tim with pcnt := c } }) ∧
      (divisor s.params s.tim.pscSh ≤ s.tim.pcnt.toNat + 1 →
        act .tim s = .next { s with tim := ({ s.tim with pcnt := 0#17 } : Timer).tick s.params })) ∧
    (s.clkRun = true → s.rccEn = true → s.rccRst = false → s.tim.cen = true → s.tim.dir = false →
      act .tim s = .refused .upCount)

/-- R270: from a start with TIM.CNT = n, UIF is first set at tick T(n), and n ≤ T(n) ≤ n + 1 and T(n) ≥ 1. -/
def Obligations.ExpiryTickCount : Prop :=
  ∀ (p : Params) (t : Timer), t.uif = false →
    (∀ k, (ticks p k t).uif = decide (expiryTicks p t.cnt ≤ k)) ∧
    (p.updateOnZero = true → t.cnt.toNat = 0 → expiryTicks p t.cnt = 1) ∧
    (p.updateOnZero = true → 1 ≤ t.cnt.toNat → expiryTicks p t.cnt = t.cnt.toNat) ∧
    (p.updateOnZero = false → expiryTicks p t.cnt = t.cnt.toNat + 1) ∧
    t.cnt.toNat ≤ expiryTicks p t.cnt ∧ expiryTicks p t.cnt ≤ t.cnt.toNat + 1 ∧ 1 ≤ expiryTicks p t.cnt

/-- R317: a counting timer with phase PCNT < D and UIF = 0 sets UIF exactly at input cycle T * D - PCNT, which lies in
[(T - 1) * D + 1, T * D], and its cycles change nothing outside the timer. For every value of the parameters. -/
def Obligations.CountdownCycleCount : Prop :=
  ∀ (s : State) (k : Nat) (rest : List Event),
    s.clkRun = true → s.rccEn = true → s.rccRst = false → s.tim.cen = true → s.tim.dir = true → s.tim.uif = false →
    s.tim.pcnt.toNat < divisor s.params s.tim.pscSh → s.inputs = List.replicate k .tim ++ rest →
    ∃ tim', runFor k s = .next { s with tim := tim', inputs := rest } ∧
      tim'.uif = decide (expiryTicks s.params s.tim.cnt * divisor s.params s.tim.pscSh - s.tim.pcnt.toNat ≤ k) ∧
      tim'.cen = true ∧ tim'.dir = true ∧ tim'.psc = s.tim.psc ∧
      (expiryTicks s.params s.tim.cnt - 1) * divisor s.params s.tim.pscSh + 1 ≤
        expiryTicks s.params s.tim.cnt * divisor s.params s.tim.pscSh - s.tim.pcnt.toNat

/-! ## Whole commands -/

/-- R130, R133, R135, R227: the host line of an acceptable INIT and five SEQ turns end with the timer owned, clocked, out of
reset and counting downward but stopped, at reset values otherwise, and both prescalers computed; four bus events in the
order of R133. -/
def Obligations.InitRunsToCompletion : Prop :=
  ∀ (pclk : Word) (div1 : Bool) (s : State) (rest : List Event),
    s.fault = false → s.busy = false → s.life = false → fEff s.params pclk div1 < 2 ^ 32 →
    s.inputs = hostLine (.init pclk div1) ++ List.replicate 5 .seq ++ rest →
    ∃ t, runFor 7 s = .next t ∧ t.inputs = rest ∧ t.fault = false ∧ t.busy = false ∧ t.upc = 0x00#8 ∧
      t.life = true ∧ t.rccEn = true ∧ t.rccRst = false ∧
      t.tim = { cen := false, dir := true, uif := false, cnt := 0#16, psc := 0#16, pscSh := 0#16,
                arr := s.params.arrReset, pcnt := 0#17 } ∧
      t.usPsc.toNat = (fEff s.params pclk div1 + 999999) / 1000000 ∧
      t.msPsc.toNat = (fEff s.params pclk div1 + 999) / 1000 ∧
      t.busTrace = .memWrite .cr1 (1#32 <<< s.params.dirBit.val) :: .atomicClear .rst :: .atomicSet .rst ::
        .atomicSet .en :: s.busTrace

/-- R146, R148, R150: the host line of an acceptable RELEASE and three SEQ turns end with the timer at reset values, its
reset pulsed and its clock gated, LIFE = 0 and the prescalers unchanged; three bus events in the order of R148. -/
def Obligations.ReleaseRunsToCompletion : Prop :=
  ∀ (s : State) (rest : List Event),
    s.fault = false → s.busy = false → s.life = true →
    s.inputs = hostLine .release ++ List.replicate 3 .seq ++ rest →
    ∃ t, runFor 4 s = .next t ∧ t.inputs = rest ∧ t.fault = false ∧ t.busy = false ∧ t.upc = 0x00#8 ∧
      t.life = false ∧ t.rccEn = false ∧ t.rccRst = false ∧
      t.tim = { cen := false, dir := false, uif := false, cnt := 0#16, psc := 0#16, pscSh := 0#16,
                arr := s.params.arrReset, pcnt := 0#17 } ∧
      t.usPsc = s.usPsc ∧ t.msPsc = s.msPsc ∧
      t.busTrace = .atomicClear .en :: .atomicClear .rst :: .atomicSet .rst :: s.busTrace

/-- R160 to R170, R172, R190 to R196, R228: a delay of any magnitude and any prescaler, through all its chunks (R168) and all
repetitions of each (R191), completes when every countdown gets at least T(DUR) * D input cycles, D the divisor of PREG and,
with preload, of the old shadow value too (R313): BUSY = 0 with the counter stopped, counting direction down, UIF = 1, PSC the
register part of the prescaler and all repetitions counted, whatever the free phases are, after one PSC write for each chunk
and five bus events for each repetition with its one poll. -/
def Obligations.DelayRunsToCompletion : Prop :=
  ∀ (u : DelayUnit) (w : OperandWidth) (n : Word) (s : State) (kss : List (List Nat)) (rest : List Event),
    s.fault = false → s.busy = false → s.life = true → s.clkRun = true → s.rccEn = true → s.rccRst = false →
    w.admits n = true →
    List.Forall₂ (fun dur ks => ks.length = (s.prescalerOf u).toNat / 65536 + 1 ∧
      ∀ k ∈ ks, enoughCycles s.params dur (BitVec.ofNat 16 ((s.prescalerOf u).toNat % 65536)) k ∧
        (s.params.pscPreload = true → enoughCycles s.params dur s.tim.pscSh k)) (chunkDurations n.toNat) kss →
    s.inputs = hostLine (delayInstr u w n) ++ delayTurns kss ++ rest →
    ∃ t, runFor (2 + (delayTurns kss).length) s = .next t ∧ t.inputs = rest ∧ t.fault = false ∧ t.busy = false ∧
      t.upc = 0x00#8 ∧ t.life = true ∧ t.usPsc = s.usPsc ∧ t.msPsc = s.msPsc ∧ t.tim.cen = false ∧ t.tim.dir = true ∧
      t.tim.uif = true ∧ t.tim.psc.toNat = (s.prescalerOf u).toNat % 65536 ∧ t.rccEn = true ∧ t.rccRst = false ∧
      t.n = 0#32 ∧ t.last = true ∧ t.reps.toNat = (s.prescalerOf u).toNat / 65536 + 1 ∧ t.rep = t.reps ∧
      t.busTrace.length = s.busTrace.length + chunkCount n.toNat * (1 + 5 * ((s.prescalerOf u).toNat / 65536 + 1))

/-- R171, R194, R316, R317: a delay of one chunk and one repetition, without preload, never ends early, however the agents'
turns interleave: after its host line, any number of SEQ turns, ENV turns and host reads of STAT, in any order, with at most
(T(n) - 1) * D input cycles among them, leave BUSY = 1 with the delay's end not yet reached, whatever the free phase is. -/
def Obligations.SingleChunkDelayNeverEndsEarly : Prop :=
  ∀ (u : DelayUnit) (w : OperandWidth) (n : Word) (s : State) (es rest : List Event),
    s.fault = false → s.busy = false → s.life = true → s.clkRun = true → s.rccEn = true → s.rccRst = false →
    s.params.pscPreload = false → w.admits n = true → n.toNat ≤ 65535 → (s.prescalerOf u).toNat ≤ 65535 →
    s.tim.cen = false → (∀ e ∈ es, e = .seq ∨ e = .tim ∨ e = .env ∨ e = rdStat) →
    es.count .tim ≤ (expiryTicks s.params (n.extractLsb' 0 16) - 1) *
      divisor s.params ((s.prescalerOf u).extractLsb' 0 16) →
    s.inputs = hostLine (delayInstr u w n) ++ es ++ rest →
    ∃ t, runFor (2 + es.length) s = .next t ∧ t.inputs = rest ∧ t.busy = true ∧ t.fault = false ∧
      t.upc ∈ [0x10#8, 0x11#8, 0x12#8, 0x13#8, 0x14#8, 0x15#8] ∧ (t.upc = 0x15#8 → t.tim.uif = false ∧ t.tim.cen = true)

/-- R258, R320: while the timer cannot count, UIF_POLL with UIF = 0 repeats through any number of SEQ, TIM and ENV turns, with
BUSY, the fault flag and the timer as they are; and a host that waits in `wait.idle` then hangs: there is an infinite fair
execution with BUSY = 1 from some place on, and the program does not terminate. The form of a host program, and that a run
which is refused is not counted, are the model's choices, entries 26 and 27. -/
def Obligations.PollHangsWithoutClock : Prop :=
  (∀ (s : State) (es rest : List Event),
    (∀ e ∈ es, e = .seq ∨ e = .tim ∨ e = .env) → s.inputs = es ++ rest → s.upc = 0x15#8 → s.tim.uif = false →
    (s.clkRun = false ∨ s.rccEn = false ∨ s.rccRst = true) →
    ∃ tr, runFor es.length s = .next { s with inputs := rest, busTrace := tr }) ∧
  (∀ (r : Run) (rest : List HostOp),
    r.prog = .waitIdle :: rest → r.st.busy = true → r.st.fault = false → r.st.upc = 0x15#8 → r.st.tim.uif = false →
    (r.st.clkRun = false ∨ r.st.rccEn = false ∨ r.st.rccRst = true) →
    hangs r ∧ ¬ terminates r ∧
    ∀ turns runs, Execution r turns runs → (∀ k, turns k ∈ [.host, .seq, .tim, .env]) →
      ∀ k, (runs k).st.busy = true ∧ (runs k).st.upc = 0x15#8 ∧ (runs k).prog = r.prog)

/-- R271, R316, R194: under the weak fairness of SEQ and TIM a running countdown ends: an execution in which nothing stops the
clock, resets the machine or touches the timer comes from UIF_POLL to CEN_CLR. The form of a host program is the model's
choice, entry 26. -/
def Obligations.FairRunLeavesPoll : Prop :=
  ∀ (r : Run) (rest : List HostOp) (turns : Nat → Turn) (runs : Nat → Run),
    Execution r turns runs → Fair turns runs → (∀ k, turns k ∈ [.host, .seq, .tim, .env]) →
    r.prog = .waitIdle :: rest → r.st.busy = true → r.st.upc = 0x15#8 → r.st.clkRun = true → r.st.rccEn = true →
    r.st.rccRst = false → r.st.tim.cen = true → r.st.tim.dir = true →
    ∃ k, (runs k).st.upc = 0x16#8 ∧ (runs k).st.busy = true ∧ (runs k).prog = r.prog

/-! ## Invariants -/

/-- Every step keeps the sequencer invariant of R229, from every state that has it: (a), (b) and (f); (c) where no OWNERSHIP
fault is recorded; (d) and (e) under the premises R229 names, which the state records (entry 25). -/
def Obligations.StepKeepsSequencerInv : Prop :=
  ∀ s t : State, SequencerInv s → step s = .next t → SequencerInv t

/-- Every step keeps R272 (a timer in reset holds its reset values) and R52 (without preload PSC_SH equals PSC). -/
def Obligations.StepKeepsTimerInv : Prop :=
  ∀ s t : State, TimerInv s → step s = .next t → TimerInv t

/-- Every step keeps the prescaler bounds of R143 and D39, in states that have the sequencer invariant. -/
def Obligations.StepKeepsPrescalerInv : Prop :=
  ∀ s t : State, SequencerInv s → PrescalerInv s → step s = .next t → PrescalerInv t

/-- The three invariants hold right after reset for every value of the parameters (R13), whatever is placed as the coming
events; State.reset, which has the defaults of R12, is one such state. -/
def Obligations.ResetHasInvariants : Prop :=
  (∀ (ps : Params) (es : List Event), SequencerInv { State.resetFor ps with inputs := es } ∧
    TimerInv { State.resetFor ps with inputs := es } ∧ PrescalerInv { State.resetFor ps with inputs := es }) ∧
  State.reset = State.resetFor Params.default

/-- In the sequencer invariant no step stops with a fault: SEQ always finds its micro-state in the table (R37, R84). Outside
the table, which R37 calls unreachable, its turn stops: the model's choice, entry 19. -/
def Obligations.NoFaultStopUnderInv : Prop :=
  (∀ (s : State) (r : Fault), SequencerInv s → step s ≠ .fault r) ∧
  (∀ s : State, s.upc ∉ microStates → act .seq s = .fault .unreachableMicroState)

/-! ## Rules of the whole machine -/

/-- R31: LIFE rises only at INIT's accept and falls only at RELEASE's EN_CLR or a reset. -/
def Obligations.LifeChangesOnlyAtInitAndRelease : Prop :=
  ∀ (e : Event) (s t : State), act e s = .next t →
    (s.life = false → t.life = true → (∃ c, e.isCommand c ∧ c.toNat % 256 = 0x01) ∧ t.upc = 0x01#8) ∧
    (s.life = true → t.life = false → (e = .seq ∧ s.upc = 0x04#8) ∨ e = .engReset ∨ e = .sysReset)

/-- R35, R36, R64: only the CALC micro-op, or a reset, changes the cached prescalers. -/
def Obligations.OnlyCalcWritesPrescalers : Prop :=
  ∀ (e : Event) (s t : State), act e s = .next t → e ≠ .engReset → e ≠ .sysReset →
    (t.usPsc ≠ s.usPsc ∨ t.msPsc ≠ s.msPsc) → e = .seq ∧ s.upc = 0x06#8

/-- R34, R308: ARG does not reach a running command: SEQ's turn does the same whatever ARG holds. -/
def Obligations.ArgDoesNotReachSequencer : Prop :=
  ∀ (s : State) (a : Word), s.upc ∈ microStates →
    ∃ t, act .seq s = .next t ∧ act .seq { s with arg := a } = .next { t with arg := a } ∧ t.arg = s.arg

/-- R59, R12: the platform's clock event sets CLK_RUN and changes nothing else, no event of HOST, SEQ, TIM or ENV changes it,
and nothing at all changes the parameters (entry 3). That the two resets leave CLK_RUN, which R302 calls an environment
draw, is the model's choice: entry 7. -/
def Obligations.EnvironmentInputsAreNotWritten : Prop :=
  (∀ (run : Bool) (s : State), act (.clkRun run) s = .next { s with clkRun := run }) ∧
  (∀ (e : Event) (s t : State), act e s = .next t →
    t.params = s.params ∧ ((∀ run, e ≠ .clkRun run) → t.clkRun = s.clkRun))

/-- R257, R306: the OWNERSHIP record is never cleared, and it is set exactly by a HOST access, by name or by address, to the
timer window or to a register of its two RCC bits, or an atomic operation on one of them, while LIFE = 1 or BUSY = 1; STAT
never shows it. R257 names atomic operations and R306 the two bits: that every read or write of the whole RCC register counts,
whatever bits it names, and of either window at every offset and size, before the refusal 93 U12 gives, is the model's
choice, entries 11 and 14, as is the free outcome of the race, entry 11. Which addresses lie in the timer window is entries 4
and 29. -/
def Obligations.OwnershipRecorded : Prop :=
  ∀ (e : Event) (s t : State), act e s = .next t →
    (s.ownership = true → t.ownership = true) ∧
    (s.ownership = false → (t.ownership = true ↔ (s.life = true ∨ s.busy = true) ∧
      ((∃ off, e.target = some (.timer, off)) ∨ (∃ b off, e.target = some (.rcc b, off))))) ∧
    (s.ownership = false → t.ownership = true → t.statWord = s.statWord ∧ t.upc = s.upc)

/-- R171: a running delay leaves its micro-states only at the end of its last repetition, by a fault, or by a reset. -/
def Obligations.DelayEndsOnlyAfterLastRepetition : Prop :=
  ∀ (e : Event) (s t : State), SequencerInv s → act e s = .next t → s.upc ∈ delayStates → t.upc ∉ delayStates →
    (e = .seq ∧ s.upc = 0x16#8 ∧ s.last = true ∧ s.rep.toNat + 1 = s.reps.toNat ∧ t.busy = false) ∨
    (∃ c, e.isCommand c ∧ t.fault = true ∧ t.fcode = 1#4) ∨ e = .engReset ∨ e = .sysReset

/-! ## The host interface -/

/-- R60, R73, R74: a HOST read of ARG, STAT, USPSC or MSPSC returns the register, STAT bit by bit as R60 lays it out, and
changes nothing else; a write to ARG sets ARG only. -/
def Obligations.HostReadsAndWritesRegisters : Prop :=
  ∀ (s : State) (v : Word),
    act rdArg s = .next { s with hostData := some s.arg } ∧
    act rdUsPsc s = .next { s with hostData := some s.usPsc } ∧
    act rdMsPsc s = .next { s with hostData := some s.msPsc } ∧
    act (wrArg v) s = .next { s with arg := v } ∧
    ∃ w : Word, act rdStat s = .next { s with hostData := some w } ∧
      w.getLsbD 0 = s.busy ∧ w.getLsbD 1 = s.life ∧ w.getLsbD 2 = s.fault ∧ w.getLsbD 3 = false ∧
      (∀ i, i < 4 → w.getLsbD (4 + i) = s.fcode.getLsbD i) ∧ (∀ i, 8 ≤ i → w.getLsbD i = false)

/-- R72, R74, R75, R79, R81, R85: the controller-window accesses that have no meaning are refused by name. Where two reasons
apply, the size is named before the alignment and the alignment before the offset, so that an unaligned word access to
offsets 0x15 to 0x1F is misaligned and not reserved: the model's choice, entry 14. -/
def Obligations.MeaninglessAccessesRefused : Prop :=
  ∀ (s : State) (v : Word) (off : Nat),
    act (.hostRead (.inWindow .controller 0x00) .word) s = .refused .cmdRead ∧
    (off ∈ [0x08, 0x0C, 0x10] →
      act (.hostWrite (.inWindow .controller off) .word v) s = .refused .writeToReadOnly) ∧
    (off ∈ [0x14, 0x18, 0x1C] →
      act (.hostRead (.inWindow .controller off) .word) s = .refused .reservedOffset ∧
      act (.hostWrite (.inWindow .controller off) .word v) s = .refused .reservedOffset) ∧
    (∀ size, size ≠ .word → act (.hostRead (.inWindow .controller off) size) s = .refused .narrowAccess ∧
      act (.hostWrite (.inWindow .controller off) size v) s = .refused .narrowAccess) ∧
    (off % 4 ≠ 0 → act (.hostRead (.inWindow .controller off) .word) s = .refused .misaligned ∧
      act (.hostWrite (.inWindow .controller off) .word v) s = .refused .misaligned)

/-- R93, R264: HOST uses a released timer. With the clock on and the reset released a write to CR1, SR, CNT, PSC or ARR has the
effect of R47 to R53, R221 and R268 (entry 13), a write that starts the counter takes a free phase (entry 10), and a read
returns the register's fields (entry 12), which advances the model's draw counter. A gated or reset timer ignores every
write and reads 0 (R93). That R93 is taken for every offset and size, and goes before the refusal 93 U12 gives a narrow or
misaligned access, is the model's choice, entry 8. -/
def Obligations.HostUsesReleasedTimer : Prop :=
  ∀ (s : State) (v : Word), s.life = false → s.busy = false → s.params.wf = true →
    (s.rccEn = true → s.rccRst = false →
      (∃ cen dir tim' d, cen = v.getLsbD s.params.cenBit.val ∧ dir = v.getLsbD s.params.dirBit.val ∧
        act (.hostWrite (.inWindow .timer s.params.cr1Off) .word v) s =
          .next { s with tim := tim', draws := d, hostUsed := true } ∧
        (cen = false ∨ s.tim.cen = true → d = s.draws ∧ tim' = { s.tim with dir := dir, cen := cen }) ∧
        (cen = true → s.tim.cen = false → d = s.draws + 1 ∧ ∃ k : Count,
          k.toNat < divisor s.params s.tim.pscSh ∧ tim' = { s.tim with dir := dir, cen := cen, pcnt := k })) ∧
      act (.hostWrite (.inWindow .timer s.params.srOff) .word v) s = .next { s with
        tim := { s.tim with uif := s.tim.uif && v.getLsbD s.params.uifBit.val }, hostUsed := true } ∧
      (∃ h : Half, h.toNat = v.toNat % 65536 ∧
        act (.hostWrite (.inWindow .timer s.params.cntOff) .word v) s =
          .next { s with tim := { s.tim with cnt := h }, hostUsed := true } ∧
        act (.hostWrite (.inWindow .timer s.params.pscOff) .word v) s = .next { s with
          tim := { s.tim with psc := h, pscSh := if s.params.pscPreload then s.tim.pscSh else h }, hostUsed := true } ∧
        act (.hostWrite (.inWindow .timer s.params.arrOff) .word v) s =
          .next { s with tim := { s.tim with arr := h }, hostUsed := true }) ∧
      ∀ r : TimReg, ∃ w, act (.hostRead (.inWindow .timer (s.params.offset r)) .word) s =
          .next { s with hostData := some w, draws := s.draws + 1 } ∧
        (r = .cr1 → w.getLsbD s.params.cenBit.val = s.tim.cen ∧ w.getLsbD s.params.dirBit.val = s.tim.dir) ∧
        (r = .sr → w.getLsbD s.params.uifBit.val = s.tim.uif) ∧ (r = .cnt → w.toNat = s.tim.cnt.toNat) ∧
        (r = .psc → w.toNat = s.tim.psc.toNat) ∧ (r = .arr → w.toNat = s.tim.arr.toNat)) ∧
    (s.rccEn = false ∨ s.rccRst = true → ∀ off size,
      act (.hostWrite (.inWindow .timer off) size v) s = .next s ∧
      act (.hostRead (.inWindow .timer off) size) s = .next { s with hostData := some 0#32 })

/-- R264, R272, R76: HOST uses the two RCC bits of a released timer: an atomic operation sets or clears its bit, and RST = 1
puts every timer register at its reset value; a read of a bit's register shows the bit, a write of the whole register takes
it and changes nothing else but the record of the use (entries 13, 25). Which words show it on a platform with one register
for both bits is R85; the other bits read free (entry 12). -/
def Obligations.HostUsesReleasedRccBits : Prop :=
  ∀ (s : State) (v : Word), s.life = false → s.busy = false →
    (∀ on, act (.hostBit .en on) s = .next { s with rccEn := on, hostUsed := true }) ∧
    act (.hostBit .rst false) s = .next { s with rccRst := false, hostUsed := true } ∧
    act (.hostBit .rst true) s = .next { s with
      rccRst := true, hostUsed := true,
      tim := { cen := false, dir := false, uif := false, cnt := 0#16, psc := 0#16, pscSh := 0#16,
               arr := s.params.arrReset, pcnt := 0#17 } } ∧
    ∀ b : RccBit, ∃ (w : Word) (en rst : Bool) (tim' : Timer),
      act (.hostRead (.inWindow (.rcc b) 0) .word) s = .next { s with hostData := some w, draws := s.draws + 1 } ∧
      act (.hostWrite (.inWindow (.rcc b) 0) .word v) s =
        .next { s with rccEn := en, rccRst := rst, tim := tim', hostUsed := true } ∧
      (b = .en ∨ Config.platform.rccEnAddr = Config.platform.rccRstAddr →
        w.getLsbD Config.platform.rccEnBit.val = s.rccEn ∧ en = v.getLsbD Config.platform.rccEnBit.val) ∧
      (b = .rst ∨ Config.platform.rccEnAddr = Config.platform.rccRstAddr →
        w.getLsbD Config.platform.rccRstBit.val = s.rccRst ∧ rst = v.getLsbD Config.platform.rccRstBit.val ∧
        (rst = false → tim' = s.tim) ∧
        (rst = true → tim' = { cen := false, dir := false, uif := false, cnt := 0#16, psc := 0#16,
                               pscSh := 0#16, arr := s.params.arrReset, pcnt := 0#17 })) ∧
      (Config.platform.rccEnAddr ≠ Config.platform.rccRstAddr →
        (b = .en → rst = s.rccRst ∧ tim' = s.tim) ∧ (b = .rst → en = s.rccEn))

/-- R78, R55: the words SEQ writes to CR1 and SR, taken apart by the bit positions, have exactly the field-level effects of
DIR_DOWN, CEN_SET, CEN_CLR and UIF_CLR, for every placement of the bits with CEN and DIR apart. -/
def Obligations.BusWordsCarryFieldEffects : Prop :=
  ∀ (p : Params) (t : Timer), p.cenBit ≠ p.dirBit →
    Timer.writeWord p .cr1 (1#32 <<< p.dirBit.val) t = { t with dir := true, cen := false } ∧
    Timer.writeWord p .cr1 (1#32 <<< p.dirBit.val ||| 1#32 <<< p.cenBit.val) t = { t with dir := true, cen := true } ∧
    Timer.writeWord p .sr (~~~(1#32 <<< p.uifBit.val)) t = { t with uif := false }

/-- R12, R81, R85: every bus event of SEQ goes to an address that is a multiple of 4, on every platform whose timer base and
RCC registers are word addresses. On the platform of this instance, which meets R85, a HOST access by address acts as the
access to the window and offset it lies in, CTRL_BASE the controller's and TIM_BASE the timer's, and an address lies in no
two windows. -/
def Obligations.AddressesAlignedAndPlaced : Prop :=
  (∀ (pl : Platform) (p : Params) (e : BusEvent), p.wf = true →
    pl.timBase.toNat % 4 = 0 → pl.rccEnAddr.toNat % 4 = 0 → pl.rccRstAddr.toNat % 4 = 0 →
    (e.address pl p).toNat % 4 = 0) ∧
  (∀ (s : State) (win : Window) (off : Nat) (size : AccessSize) (v : Word), off < Config.platform.length win →
    act (.hostRead (.address (Config.platform.base win + BitVec.ofNat 32 off)) size) s =
      act (.hostRead (.inWindow win off) size) s ∧
    act (.hostWrite (.address (Config.platform.base win + BitVec.ofNat 32 off)) size v) s =
      act (.hostWrite (.inWindow win off) size v) s) ∧
  (∀ (v w : Window) (i j : Nat), i < Config.platform.length v → j < Config.platform.length w →
    Config.platform.base v + BitVec.ofNat 32 i = Config.platform.base w + BitVec.ofNat 32 j →
    i = j ∧ (v = w ∨ (∃ b c, v = .rcc b ∧ w = .rcc c ∧ Config.platform.rccEnBit ≠ Config.platform.rccRstBit)))

/-! ## Resets -/

/-- R300: engine reset sets the controller registers and leaves the timer and the RCC bits alone. The working registers are
free values within R44 and R45: entry 6. That CLK_RUN, an environment draw (R302), stays is the model's choice: entry 7. The
records OWNERSHIP and of the host's own use stay (entries 11, 25), and `cutShort` also holds from now on if a command was
running or had been stopped by CMD_WHILE_BUSY (entry 25). -/
def Obligations.EngineResetEffect : Prop :=
  ∀ s : State, ∃ t, act .engReset s = .next t ∧
    t.life = false ∧ t.busy = false ∧ t.fault = false ∧ t.fcode = 0#4 ∧ t.arg = 0#32 ∧ t.usPsc = 0#32 ∧
    t.msPsc = 0#32 ∧ t.upc = 0x00#8 ∧ t.tim = s.tim ∧ t.rccEn = s.rccEn ∧ t.rccRst = s.rccRst ∧ t.clkRun = s.clkRun ∧
    1 ≤ t.reps.toNat ∧ t.reps.toNat ≤ 65536 ∧ t.rep.toNat ≤ 65536 ∧
    t.ownership = s.ownership ∧ t.hostUsed = s.hostUsed ∧
    (t.cutShort = true ↔ s.cutShort = true ∨ s.busy = true ∨ (s.fault = true ∧ s.fcode = 1#4))

/-- R301, R302: system reset does that and resets the timer unit and the RCC bits, and the records of the host's own use and
of a command cut short end (entry 25), while OWNERSHIP stays (entry 11) and CLK_RUN does (entry 7). The state right after
reset holds R302's values for every value of the parameters (R13); State.reset is the one with the defaults of R12, written
out here: TIMCLK_DOUBLE_WHEN_DIV1 and UPDATE_ON_ZERO true, PSC_PLUS_ONE and PSC_PRELOAD false, ARR_RESET = 0xFFFF, and the
default bits and offsets. -/
def Obligations.SystemResetEffect : Prop :=
  (∀ s : State, ∃ t, act .sysReset s = .next t ∧
    t.life = false ∧ t.busy = false ∧ t.fault = false ∧ t.fcode = 0#4 ∧ t.arg = 0#32 ∧ t.usPsc = 0#32 ∧
    t.msPsc = 0#32 ∧ t.upc = 0x00#8 ∧
    t.tim = { cen := false, dir := false, uif := false, cnt := 0#16, psc := 0#16, pscSh := 0#16,
              arr := s.params.arrReset, pcnt := 0#17 } ∧
    t.rccEn = false ∧ t.rccRst = false ∧ 1 ≤ t.reps.toNat ∧ t.reps.toNat ≤ 65536 ∧ t.rep.toNat ≤ 65536 ∧
    t.hostUsed = false ∧ t.cutShort = false ∧ t.ownership = s.ownership ∧ t.clkRun = s.clkRun) ∧
  (∀ (ps : Params) (s : State), s = State.resetFor ps →
    s.life = false ∧ s.busy = false ∧ s.fault = false ∧ s.fcode = 0#4 ∧ s.arg = 0#32 ∧ s.usPsc = 0#32 ∧
    s.msPsc = 0#32 ∧ s.upc = 0x00#8 ∧
    s.tim = { cen := false, dir := false, uif := false, cnt := 0#16, psc := 0#16, pscSh := 0#16,
              arr := ps.arrReset, pcnt := 0#17 } ∧
    s.rccEn = false ∧ s.rccRst = false ∧ s.params = ps ∧
    s.ownership = false ∧ s.hostUsed = false ∧ s.cutShort = false) ∧
  State.reset = State.resetFor
    { timclkDoubleWhenDiv1 := true, pscPlusOne := false, updateOnZero := true, pscPreload := false,
      arrReset := 0xFFFF#16, cenBit := 0, dirBit := 4, uifBit := 0,
      cr1Off := 0x00, srOff := 0x10, cntOff := 0x24, pscOff := 0x28, arrOff := 0x2C }
end

