-- ==== Sys2Proof/Laws/Decode.lean ====
section
/-!
SUPPORT. What the decoder can answer, said once: the micro-state codes and their micro-operations, the command words and
their instructions, and the operand constraint as a bound.
-/

namespace Sys2Proof

/-- R104: high bits 0 is the same as a value in range. -/
theorem argFits_eq_admits (w : OperandWidth) (a : Word) : argFits w a = w.admits a := by
  cases w with
  | w8 =>
    simp only [argFits, OperandWidth.admits, beq_eq_decide, BitVec.toNat_eq, BitVec.extractLsb'_toNat,
      BitVec.toNat_ofNat, Nat.shiftRight_eq_div_pow]
    have := a.isLt
    apply decide_eq_decide.mpr
    omega
  | w16 =>
    simp only [argFits, OperandWidth.admits, beq_eq_decide, BitVec.toNat_eq, BitVec.extractLsb'_toNat,
      BitVec.toNat_ofNat, Nat.shiftRight_eq_div_pow]
    have := a.isLt
    apply decide_eq_decide.mpr
    omega
  | w32 => rfl

/-- The opcode byte as a number. -/
theorem cmdOpc_eq_iff (c : Word) (k : Byte) : cmdOpc c = k ↔ c.toNat % 256 = k.toNat := by
  rw [BitVec.toNat_eq, cmdOpc, BitVec.extractLsb'_toNat]; simp

/-- DIV1 as a number. -/
theorem cmdDiv1_eq (c : Word) : cmdDiv1 c = decide (c.toNat / 256 % 2 = 1) := by
  simp only [cmdDiv1, BitVec.getLsbD, Nat.testBit_eq_decide_div_mod_eq]

/-- RSV = 0 as a bound. -/
theorem cmdRsv_eq_zero_iff (c : Word) : cmdRsv c = 0#23 ↔ c.toNat < 512 := by
  rw [BitVec.toNat_eq, cmdRsv, BitVec.extractLsb'_toNat]
  simp only [Nat.shiftRight_eq_div_pow, BitVec.toNat_ofNat]
  have := c.isLt
  omega

/-- The table of R109: each code with its micro-operation. -/
def microTable : List (Byte × Instr) :=
  [(Upc.idle, .uopIdle), (Upc.enSet, .uopEnSet), (Upc.rstSet, .uopRstSet), (Upc.rstClr, .uopRstClr),
   (Upc.enClr, .uopEnClr), (Upc.dirDown, .uopDirDown), (Upc.calc, .uopCalc), (Upc.chunk, .uopChunk),
   (Upc.pscWr, .uopPscWr), (Upc.uifClr, .uopUifClr), (Upc.cntWr, .uopCntWr), (Upc.cenSet, .uopCenSet),
   (Upc.uifPoll, .uopUifPoll), (Upc.cenClr, .uopCenClr), (Upc.fault, .uopFault)]

/-- A code decodes to the micro-operation the table gives it, and a code outside the table to none. -/
theorem decodeMicro_table : ∀ u : Byte,
    (match decodeMicro u with
    | .ok i => decide ((u, i) ∈ microTable)
    | .error _ => decide (u ∉ microStates)) = true := by decide

/-- The code a micro-operation was read from is its own (R109). -/
theorem decodeMicro_encode_all : ∀ u : Byte,
    (match decodeMicro u with
    | .ok i => decide (encode i = .micro u)
    | .error _ => true) = true := by decide

theorem decodeMicro_encode {u : Byte} {i : Instr} (h : decodeMicro u = .ok i) : encode i = .micro u := by
  have := decodeMicro_encode_all u
  rw [h] at this
  exact of_decide_eq_true this

/-- Every code of the table decodes. -/
theorem decodeMicro_of_mem : ∀ u ∈ microStates, ∃ i, decodeMicro u = .ok i := by
  intro u hu
  have := decodeMicro_table u
  cases h : decodeMicro u with
  | ok i => exact ⟨i, rfl⟩
  | error e => rw [h] at this; exact absurd hu (of_decide_eq_true this)

/-- What a legal command word with its ARG value is (R107): INIT, RELEASE or a delay with its operand in range. -/
theorem decodeCommand_cases {c a : Word} {i : Instr} (h : decodeCommand c a = .ok i) :
    (i = .init a (cmdDiv1 c) ∧ cmdOpc c = 0x01#8) ∨ (i = .release ∧ cmdOpc c = 0x02#8) ∨
    ∃ u w, i = Machine.delayInstr u w a ∧ cmdOpc c = Machine.delayOpcode u w ∧ w.admits a = true := by
  unfold decodeCommand decodeDelay at h
  simp only [argFits_eq_admits] at h
  by_cases h0 : cmdRsv c = 0#23
  case neg => simp [h0] at h
  by_cases h1 : cmdOpc c = 0x01#8
  case pos => simp only [h0, h1, ne_eq, not_true_eq_false, if_false, if_true, Except.ok.injEq] at h; exact .inl ⟨h.symm, h1⟩
  cases h2 : cmdDiv1 c
  case true => simp [h0, h1, h2] at h
  by_cases h3 : cmdOpc c = 0x02#8
  case pos => simp [h0, h2, h3] at h; exact .inr (.inl ⟨h.symm, h3⟩)
  refine .inr (.inr ?_)
  have key : ∀ (u : DelayUnit) (w : OperandWidth), cmdOpc c = Machine.delayOpcode u w →
      (if w.admits a = true then Except.ok (Machine.delayInstr u w a) else .error DecodeError.operandTooWide) = .ok i →
      ∃ u w, i = Machine.delayInstr u w a ∧ cmdOpc c = Machine.delayOpcode u w ∧ w.admits a = true := by
    intro u w ho hk
    cases hw : w.admits a with
    | true => rw [hw] at hk; exact ⟨u, w, (Except.ok.inj hk).symm, ho, hw⟩
    | false => rw [hw] at hk; cases hk
  by_cases h4 : cmdOpc c = 0x10#8
  case pos => rw [h0, h4, h2] at h; exact key .ms .w8 h4 h
  by_cases h5 : cmdOpc c = 0x11#8
  case pos => rw [h0, h5, h2] at h; exact key .ms .w16 h5 h
  by_cases h6 : cmdOpc c = 0x12#8
  case pos => rw [h0, h6, h2] at h; exact key .ms .w32 h6 h
  by_cases h7 : cmdOpc c = 0x18#8
  case pos => rw [h0, h7, h2] at h; exact key .us .w8 h7 h
  by_cases h8 : cmdOpc c = 0x19#8
  case pos => rw [h0, h8, h2] at h; exact key .us .w16 h8 h
  by_cases h9 : cmdOpc c = 0x1A#8
  case pos => rw [h0, h9, h2] at h; exact key .us .w32 h9 h
  simp [h0, h1, h2, h3, h4, h5, h6, h7, h8, h9] at h

end Sys2Proof
end

