-- ==== Sys2Proof/Laws/State.lean ====
section
/-!
SUPPORT. One lemma per field per named update of the state and of the timer, each true by rfl, so that no proof unfolds a
record update.
-/

namespace Sys2Proof.Machine

section StateUpdates
variable (s : State)

/-! R251: fault entry. -/
@[simp] theorem State.raiseFault_life (c : FaultCause) : (s.raiseFault c).life = s.life := rfl
@[simp] theorem State.raiseFault_busy (c : FaultCause) : (s.raiseFault c).busy = false := rfl
@[simp] theorem State.raiseFault_fault (c : FaultCause) : (s.raiseFault c).fault = true := rfl
@[simp] theorem State.raiseFault_fcode (c : FaultCause) : (s.raiseFault c).fcode = faultCode c := rfl
@[simp] theorem State.raiseFault_arg (c : FaultCause) : (s.raiseFault c).arg = s.arg := rfl
@[simp] theorem State.raiseFault_usPsc (c : FaultCause) : (s.raiseFault c).usPsc = s.usPsc := rfl
@[simp] theorem State.raiseFault_msPsc (c : FaultCause) : (s.raiseFault c).msPsc = s.msPsc := rfl
@[simp] theorem State.raiseFault_upc (c : FaultCause) : (s.raiseFault c).upc = Upc.fault := rfl
@[simp] theorem State.raiseFault_cop (c : FaultCause) : (s.raiseFault c).cop = s.cop := rfl
@[simp] theorem State.raiseFault_cdiv1 (c : FaultCause) : (s.raiseFault c).cdiv1 = s.cdiv1 := rfl
@[simp] theorem State.raiseFault_n (c : FaultCause) : (s.raiseFault c).n = s.n := rfl
@[simp] theorem State.raiseFault_last (c : FaultCause) : (s.raiseFault c).last = s.last := rfl
@[simp] theorem State.raiseFault_p (c : FaultCause) : (s.raiseFault c).p = s.p := rfl
@[simp] theorem State.raiseFault_dur (c : FaultCause) : (s.raiseFault c).dur = s.dur := rfl
@[simp] theorem State.raiseFault_preg (c : FaultCause) : (s.raiseFault c).preg = s.preg := rfl
@[simp] theorem State.raiseFault_reps (c : FaultCause) : (s.raiseFault c).reps = s.reps := rfl
@[simp] theorem State.raiseFault_rep (c : FaultCause) : (s.raiseFault c).rep = s.rep := rfl
@[simp] theorem State.raiseFault_tim (c : FaultCause) : (s.raiseFault c).tim = s.tim := rfl
@[simp] theorem State.raiseFault_rccEn (c : FaultCause) : (s.raiseFault c).rccEn = s.rccEn := rfl
@[simp] theorem State.raiseFault_rccRst (c : FaultCause) : (s.raiseFault c).rccRst = s.rccRst := rfl
@[simp] theorem State.raiseFault_clkRun (c : FaultCause) : (s.raiseFault c).clkRun = s.clkRun := rfl
@[simp] theorem State.raiseFault_ownership (c : FaultCause) : (s.raiseFault c).ownership = s.ownership := rfl
@[simp] theorem State.raiseFault_hostUsed (c : FaultCause) : (s.raiseFault c).hostUsed = s.hostUsed := rfl
@[simp] theorem State.raiseFault_cutShort (c : FaultCause) : (s.raiseFault c).cutShort = s.cutShort := rfl
@[simp] theorem State.raiseFault_params (c : FaultCause) : (s.raiseFault c).params = s.params := rfl
@[simp] theorem State.raiseFault_inputs (c : FaultCause) : (s.raiseFault c).inputs = s.inputs := rfl
@[simp] theorem State.raiseFault_turn (c : FaultCause) : (s.raiseFault c).turn = s.turn := rfl
@[simp] theorem State.raiseFault_draws (c : FaultCause) : (s.raiseFault c).draws = s.draws := rfl
@[simp] theorem State.raiseFault_hostData (c : FaultCause) : (s.raiseFault c).hostData = s.hostData := rfl
@[simp] theorem State.raiseFault_busTrace (c : FaultCause) : (s.raiseFault c).busTrace = s.busTrace := rfl

/-! R80: a bus event is recorded. -/
@[simp] theorem State.logBus_life (e : BusEvent) : (s.logBus e).life = s.life := rfl
@[simp] theorem State.logBus_busy (e : BusEvent) : (s.logBus e).busy = s.busy := rfl
@[simp] theorem State.logBus_fault (e : BusEvent) : (s.logBus e).fault = s.fault := rfl
@[simp] theorem State.logBus_fcode (e : BusEvent) : (s.logBus e).fcode = s.fcode := rfl
@[simp] theorem State.logBus_arg (e : BusEvent) : (s.logBus e).arg = s.arg := rfl
@[simp] theorem State.logBus_usPsc (e : BusEvent) : (s.logBus e).usPsc = s.usPsc := rfl
@[simp] theorem State.logBus_msPsc (e : BusEvent) : (s.logBus e).msPsc = s.msPsc := rfl
@[simp] theorem State.logBus_upc (e : BusEvent) : (s.logBus e).upc = s.upc := rfl
@[simp] theorem State.logBus_cop (e : BusEvent) : (s.logBus e).cop = s.cop := rfl
@[simp] theorem State.logBus_cdiv1 (e : BusEvent) : (s.logBus e).cdiv1 = s.cdiv1 := rfl
@[simp] theorem State.logBus_n (e : BusEvent) : (s.logBus e).n = s.n := rfl
@[simp] theorem State.logBus_last (e : BusEvent) : (s.logBus e).last = s.last := rfl
@[simp] theorem State.logBus_p (e : BusEvent) : (s.logBus e).p = s.p := rfl
@[simp] theorem State.logBus_dur (e : BusEvent) : (s.logBus e).dur = s.dur := rfl
@[simp] theorem State.logBus_preg (e : BusEvent) : (s.logBus e).preg = s.preg := rfl
@[simp] theorem State.logBus_reps (e : BusEvent) : (s.logBus e).reps = s.reps := rfl
@[simp] theorem State.logBus_rep (e : BusEvent) : (s.logBus e).rep = s.rep := rfl
@[simp] theorem State.logBus_tim (e : BusEvent) : (s.logBus e).tim = s.tim := rfl
@[simp] theorem State.logBus_rccEn (e : BusEvent) : (s.logBus e).rccEn = s.rccEn := rfl
@[simp] theorem State.logBus_rccRst (e : BusEvent) : (s.logBus e).rccRst = s.rccRst := rfl
@[simp] theorem State.logBus_clkRun (e : BusEvent) : (s.logBus e).clkRun = s.clkRun := rfl
@[simp] theorem State.logBus_ownership (e : BusEvent) : (s.logBus e).ownership = s.ownership := rfl
@[simp] theorem State.logBus_hostUsed (e : BusEvent) : (s.logBus e).hostUsed = s.hostUsed := rfl
@[simp] theorem State.logBus_cutShort (e : BusEvent) : (s.logBus e).cutShort = s.cutShort := rfl
@[simp] theorem State.logBus_params (e : BusEvent) : (s.logBus e).params = s.params := rfl
@[simp] theorem State.logBus_inputs (e : BusEvent) : (s.logBus e).inputs = s.inputs := rfl
@[simp] theorem State.logBus_turn (e : BusEvent) : (s.logBus e).turn = s.turn := rfl
@[simp] theorem State.logBus_draws (e : BusEvent) : (s.logBus e).draws = s.draws := rfl
@[simp] theorem State.logBus_hostData (e : BusEvent) : (s.logBus e).hostData = s.hostData := rfl
@[simp] theorem State.logBus_busTrace (e : BusEvent) : (s.logBus e).busTrace = e :: s.busTrace := rfl

/-! R93: a write to a timer register. -/
@[simp] theorem State.timerWrite_life (f : Timer → Timer) : (s.timerWrite f).life = s.life := rfl
@[simp] theorem State.timerWrite_busy (f : Timer → Timer) : (s.timerWrite f).busy = s.busy := rfl
@[simp] theorem State.timerWrite_fault (f : Timer → Timer) : (s.timerWrite f).fault = s.fault := rfl
@[simp] theorem State.timerWrite_fcode (f : Timer → Timer) : (s.timerWrite f).fcode = s.fcode := rfl
@[simp] theorem State.timerWrite_arg (f : Timer → Timer) : (s.timerWrite f).arg = s.arg := rfl
@[simp] theorem State.timerWrite_usPsc (f : Timer → Timer) : (s.timerWrite f).usPsc = s.usPsc := rfl
@[simp] theorem State.timerWrite_msPsc (f : Timer → Timer) : (s.timerWrite f).msPsc = s.msPsc := rfl
@[simp] theorem State.timerWrite_upc (f : Timer → Timer) : (s.timerWrite f).upc = s.upc := rfl
@[simp] theorem State.timerWrite_cop (f : Timer → Timer) : (s.timerWrite f).cop = s.cop := rfl
@[simp] theorem State.timerWrite_cdiv1 (f : Timer → Timer) : (s.timerWrite f).cdiv1 = s.cdiv1 := rfl
@[simp] theorem State.timerWrite_n (f : Timer → Timer) : (s.timerWrite f).n = s.n := rfl
@[simp] theorem State.timerWrite_last (f : Timer → Timer) : (s.timerWrite f).last = s.last := rfl
@[simp] theorem State.timerWrite_p (f : Timer → Timer) : (s.timerWrite f).p = s.p := rfl
@[simp] theorem State.timerWrite_dur (f : Timer → Timer) : (s.timerWrite f).dur = s.dur := rfl
@[simp] theorem State.timerWrite_preg (f : Timer → Timer) : (s.timerWrite f).preg = s.preg := rfl
@[simp] theorem State.timerWrite_reps (f : Timer → Timer) : (s.timerWrite f).reps = s.reps := rfl
@[simp] theorem State.timerWrite_rep (f : Timer → Timer) : (s.timerWrite f).rep = s.rep := rfl
@[simp] theorem State.timerWrite_tim (f : Timer → Timer) :
    (s.timerWrite f).tim = if s.timerReachable then f s.tim else s.tim := rfl
@[simp] theorem State.timerWrite_rccEn (f : Timer → Timer) : (s.timerWrite f).rccEn = s.rccEn := rfl
@[simp] theorem State.timerWrite_rccRst (f : Timer → Timer) : (s.timerWrite f).rccRst = s.rccRst := rfl
@[simp] theorem State.timerWrite_clkRun (f : Timer → Timer) : (s.timerWrite f).clkRun = s.clkRun := rfl
@[simp] theorem State.timerWrite_ownership (f : Timer → Timer) : (s.timerWrite f).ownership = s.ownership := rfl
@[simp] theorem State.timerWrite_hostUsed (f : Timer → Timer) : (s.timerWrite f).hostUsed = s.hostUsed := rfl
@[simp] theorem State.timerWrite_cutShort (f : Timer → Timer) : (s.timerWrite f).cutShort = s.cutShort := rfl
@[simp] theorem State.timerWrite_params (f : Timer → Timer) : (s.timerWrite f).params = s.params := rfl
@[simp] theorem State.timerWrite_inputs (f : Timer → Timer) : (s.timerWrite f).inputs = s.inputs := rfl
@[simp] theorem State.timerWrite_turn (f : Timer → Timer) : (s.timerWrite f).turn = s.turn := rfl
@[simp] theorem State.timerWrite_draws (f : Timer → Timer) : (s.timerWrite f).draws = s.draws := rfl
@[simp] theorem State.timerWrite_hostData (f : Timer → Timer) : (s.timerWrite f).hostData = s.hostData := rfl
@[simp] theorem State.timerWrite_busTrace (f : Timer → Timer) : (s.timerWrite f).busTrace = s.busTrace := rfl

/-! R78: a register write of SEQ. -/
@[simp] theorem State.seqWrite_life (r : TimReg) (v : Word) (f : Timer → Timer) :
    (s.seqWrite r v f).life = s.life := rfl
@[simp] theorem State.seqWrite_busy (r : TimReg) (v : Word) (f : Timer → Timer) :
    (s.seqWrite r v f).busy = s.busy := rfl
@[simp] theorem State.seqWrite_fault (r : TimReg) (v : Word) (f : Timer → Timer) :
    (s.seqWrite r v f).fault = s.fault := rfl
@[simp] theorem State.seqWrite_fcode (r : TimReg) (v : Word) (f : Timer → Timer) :
    (s.seqWrite r v f).fcode = s.fcode := rfl
@[simp] theorem State.seqWrite_arg (r : TimReg) (v : Word) (f : Timer → Timer) : (s.seqWrite r v f).arg = s.arg := rfl
@[simp] theorem State.seqWrite_usPsc (r : TimReg) (v : Word) (f : Timer → Timer) :
    (s.seqWrite r v f).usPsc = s.usPsc := rfl
@[simp] theorem State.seqWrite_msPsc (r : TimReg) (v : Word) (f : Timer → Timer) :
    (s.seqWrite r v f).msPsc = s.msPsc := rfl
@[simp] theorem State.seqWrite_upc (r : TimReg) (v : Word) (f : Timer → Timer) : (s.seqWrite r v f).upc = s.upc := rfl
@[simp] theorem State.seqWrite_cop (r : TimReg) (v : Word) (f : Timer → Timer) : (s.seqWrite r v f).cop = s.cop := rfl
@[simp] theorem State.seqWrite_cdiv1 (r : TimReg) (v : Word) (f : Timer → Timer) :
    (s.seqWrite r v f).cdiv1 = s.cdiv1 := rfl
@[simp] theorem State.seqWrite_n (r : TimReg) (v : Word) (f : Timer → Timer) : (s.seqWrite r v f).n = s.n := rfl
@[simp] theorem State.seqWrite_last (r : TimReg) (v : Word) (f : Timer → Timer) :
    (s.seqWrite r v f).last = s.last := rfl
@[simp] theorem State.seqWrite_p (r : TimReg) (v : Word) (f : Timer → Timer) : (s.seqWrite r v f).p = s.p := rfl
@[simp] theorem State.seqWrite_dur (r : TimReg) (v : Word) (f : Timer → Timer) : (s.seqWrite r v f).dur = s.dur := rfl
@[simp] theorem State.seqWrite_preg (r : TimReg) (v : Word) (f : Timer → Timer) :
    (s.seqWrite r v f).preg = s.preg := rfl
@[simp] theorem State.seqWrite_reps (r : TimReg) (v : Word) (f : Timer → Timer) :
    (s.seqWrite r v f).reps = s.reps := rfl
@[simp] theorem State.seqWrite_rep (r : TimReg) (v : Word) (f : Timer → Timer) : (s.seqWrite r v f).rep = s.rep := rfl
@[simp] theorem State.seqWrite_tim (r : TimReg) (v : Word) (f : Timer → Timer) :
    (s.seqWrite r v f).tim = if s.timerReachable then f s.tim else s.tim := rfl
@[simp] theorem State.seqWrite_rccEn (r : TimReg) (v : Word) (f : Timer → Timer) :
    (s.seqWrite r v f).rccEn = s.rccEn := rfl
@[simp] theorem State.seqWrite_rccRst (r : TimReg) (v : Word) (f : Timer → Timer) :
    (s.seqWrite r v f).rccRst = s.rccRst := rfl
@[simp] theorem State.seqWrite_clkRun (r : TimReg) (v : Word) (f : Timer → Timer) :
    (s.seqWrite r v f).clkRun = s.clkRun := rfl
@[simp] theorem State.seqWrite_ownership (r : TimReg) (v : Word) (f : Timer → Timer) :
    (s.seqWrite r v f).ownership = s.ownership := rfl
@[simp] theorem State.seqWrite_hostUsed (r : TimReg) (v : Word) (f : Timer → Timer) :
    (s.seqWrite r v f).hostUsed = s.hostUsed := rfl
@[simp] theorem State.seqWrite_cutShort (r : TimReg) (v : Word) (f : Timer → Timer) :
    (s.seqWrite r v f).cutShort = s.cutShort := rfl
@[simp] theorem State.seqWrite_params (r : TimReg) (v : Word) (f : Timer → Timer) :
    (s.seqWrite r v f).params = s.params := rfl
@[simp] theorem State.seqWrite_inputs (r : TimReg) (v : Word) (f : Timer → Timer) :
    (s.seqWrite r v f).inputs = s.inputs := rfl
@[simp] theorem State.seqWrite_turn (r : TimReg) (v : Word) (f : Timer → Timer) :
    (s.seqWrite r v f).turn = s.turn := rfl
@[simp] theorem State.seqWrite_draws (r : TimReg) (v : Word) (f : Timer → Timer) :
    (s.seqWrite r v f).draws = s.draws := rfl
@[simp] theorem State.seqWrite_hostData (r : TimReg) (v : Word) (f : Timer → Timer) :
    (s.seqWrite r v f).hostData = s.hostData := rfl
@[simp] theorem State.seqWrite_busTrace (r : TimReg) (v : Word) (f : Timer → Timer) :
    (s.seqWrite r v f).busTrace = .memWrite r v :: s.busTrace := rfl

/-! R76: RCC.EN is written. -/
@[simp] theorem State.writeEn_life (v : Bool) : (s.writeEn v).life = s.life := rfl
@[simp] theorem State.writeEn_busy (v : Bool) : (s.writeEn v).busy = s.busy := rfl
@[simp] theorem State.writeEn_fault (v : Bool) : (s.writeEn v).fault = s.fault := rfl
@[simp] theorem State.writeEn_fcode (v : Bool) : (s.writeEn v).fcode = s.fcode := rfl
@[simp] theorem State.writeEn_arg (v : Bool) : (s.writeEn v).arg = s.arg := rfl
@[simp] theorem State.writeEn_usPsc (v : Bool) : (s.writeEn v).usPsc = s.usPsc := rfl
@[simp] theorem State.writeEn_msPsc (v : Bool) : (s.writeEn v).msPsc = s.msPsc := rfl
@[simp] theorem State.writeEn_upc (v : Bool) : (s.writeEn v).upc = s.upc := rfl
@[simp] theorem State.writeEn_cop (v : Bool) : (s.writeEn v).cop = s.cop := rfl
@[simp] theorem State.writeEn_cdiv1 (v : Bool) : (s.writeEn v).cdiv1 = s.cdiv1 := rfl
@[simp] theorem State.writeEn_n (v : Bool) : (s.writeEn v).n = s.n := rfl
@[simp] theorem State.writeEn_last (v : Bool) : (s.writeEn v).last = s.last := rfl
@[simp] theorem State.writeEn_p (v : Bool) : (s.writeEn v).p = s.p := rfl
@[simp] theorem State.writeEn_dur (v : Bool) : (s.writeEn v).dur = s.dur := rfl
@[simp] theorem State.writeEn_preg (v : Bool) : (s.writeEn v).preg = s.preg := rfl
@[simp] theorem State.writeEn_reps (v : Bool) : (s.writeEn v).reps = s.reps := rfl
@[simp] theorem State.writeEn_rep (v : Bool) : (s.writeEn v).rep = s.rep := rfl
@[simp] theorem State.writeEn_tim (v : Bool) : (s.writeEn v).tim = s.tim := rfl
@[simp] theorem State.writeEn_rccEn (v : Bool) : (s.writeEn v).rccEn = v := rfl
@[simp] theorem State.writeEn_rccRst (v : Bool) : (s.writeEn v).rccRst = s.rccRst := rfl
@[simp] theorem State.writeEn_clkRun (v : Bool) : (s.writeEn v).clkRun = s.clkRun := rfl
@[simp] theorem State.writeEn_ownership (v : Bool) : (s.writeEn v).ownership = s.ownership := rfl
@[simp] theorem State.writeEn_hostUsed (v : Bool) : (s.writeEn v).hostUsed = s.hostUsed := rfl
@[simp] theorem State.writeEn_cutShort (v : Bool) : (s.writeEn v).cutShort = s.cutShort := rfl
@[simp] theorem State.writeEn_params (v : Bool) : (s.writeEn v).params = s.params := rfl
@[simp] theorem State.writeEn_inputs (v : Bool) : (s.writeEn v).inputs = s.inputs := rfl
@[simp] theorem State.writeEn_turn (v : Bool) : (s.writeEn v).turn = s.turn := rfl
@[simp] theorem State.writeEn_draws (v : Bool) : (s.writeEn v).draws = s.draws := rfl
@[simp] theorem State.writeEn_hostData (v : Bool) : (s.writeEn v).hostData = s.hostData := rfl
@[simp] theorem State.writeEn_busTrace (v : Bool) : (s.writeEn v).busTrace = s.busTrace := rfl

/-! R76, R272: RCC.RST is written. -/
@[simp] theorem State.writeRst_life (v : Bool) : (s.writeRst v).life = s.life := rfl
@[simp] theorem State.writeRst_busy (v : Bool) : (s.writeRst v).busy = s.busy := rfl
@[simp] theorem State.writeRst_fault (v : Bool) : (s.writeRst v).fault = s.fault := rfl
@[simp] theorem State.writeRst_fcode (v : Bool) : (s.writeRst v).fcode = s.fcode := rfl
@[simp] theorem State.writeRst_arg (v : Bool) : (s.writeRst v).arg = s.arg := rfl
@[simp] theorem State.writeRst_usPsc (v : Bool) : (s.writeRst v).usPsc = s.usPsc := rfl
@[simp] theorem State.writeRst_msPsc (v : Bool) : (s.writeRst v).msPsc = s.msPsc := rfl
@[simp] theorem State.writeRst_upc (v : Bool) : (s.writeRst v).upc = s.upc := rfl
@[simp] theorem State.writeRst_cop (v : Bool) : (s.writeRst v).cop = s.cop := rfl
@[simp] theorem State.writeRst_cdiv1 (v : Bool) : (s.writeRst v).cdiv1 = s.cdiv1 := rfl
@[simp] theorem State.writeRst_n (v : Bool) : (s.writeRst v).n = s.n := rfl
@[simp] theorem State.writeRst_last (v : Bool) : (s.writeRst v).last = s.last := rfl
@[simp] theorem State.writeRst_p (v : Bool) : (s.writeRst v).p = s.p := rfl
@[simp] theorem State.writeRst_dur (v : Bool) : (s.writeRst v).dur = s.dur := rfl
@[simp] theorem State.writeRst_preg (v : Bool) : (s.writeRst v).preg = s.preg := rfl
@[simp] theorem State.writeRst_reps (v : Bool) : (s.writeRst v).reps = s.reps := rfl
@[simp] theorem State.writeRst_rep (v : Bool) : (s.writeRst v).rep = s.rep := rfl
@[simp] theorem State.writeRst_tim (v : Bool) :
    (s.writeRst v).tim = if v then Timer.atReset s.params else s.tim := rfl
@[simp] theorem State.writeRst_rccEn (v : Bool) : (s.writeRst v).rccEn = s.rccEn := rfl
@[simp] theorem State.writeRst_rccRst (v : Bool) : (s.writeRst v).rccRst = v := rfl
@[simp] theorem State.writeRst_clkRun (v : Bool) : (s.writeRst v).clkRun = s.clkRun := rfl
@[simp] theorem State.writeRst_ownership (v : Bool) : (s.writeRst v).ownership = s.ownership := rfl
@[simp] theorem State.writeRst_hostUsed (v : Bool) : (s.writeRst v).hostUsed = s.hostUsed := rfl
@[simp] theorem State.writeRst_cutShort (v : Bool) : (s.writeRst v).cutShort = s.cutShort := rfl
@[simp] theorem State.writeRst_params (v : Bool) : (s.writeRst v).params = s.params := rfl
@[simp] theorem State.writeRst_inputs (v : Bool) : (s.writeRst v).inputs = s.inputs := rfl
@[simp] theorem State.writeRst_turn (v : Bool) : (s.writeRst v).turn = s.turn := rfl
@[simp] theorem State.writeRst_draws (v : Bool) : (s.writeRst v).draws = s.draws := rfl
@[simp] theorem State.writeRst_hostData (v : Bool) : (s.writeRst v).hostData = s.hostData := rfl
@[simp] theorem State.writeRst_busTrace (v : Bool) : (s.writeRst v).busTrace = s.busTrace := rfl

/-! R267: the phase draw. -/
@[simp] theorem State.drawPhase_life : (s.drawPhase).life = s.life := rfl
@[simp] theorem State.drawPhase_busy : (s.drawPhase).busy = s.busy := rfl
@[simp] theorem State.drawPhase_fault : (s.drawPhase).fault = s.fault := rfl
@[simp] theorem State.drawPhase_fcode : (s.drawPhase).fcode = s.fcode := rfl
@[simp] theorem State.drawPhase_arg : (s.drawPhase).arg = s.arg := rfl
@[simp] theorem State.drawPhase_usPsc : (s.drawPhase).usPsc = s.usPsc := rfl
@[simp] theorem State.drawPhase_msPsc : (s.drawPhase).msPsc = s.msPsc := rfl
@[simp] theorem State.drawPhase_upc : (s.drawPhase).upc = s.upc := rfl
@[simp] theorem State.drawPhase_cop : (s.drawPhase).cop = s.cop := rfl
@[simp] theorem State.drawPhase_cdiv1 : (s.drawPhase).cdiv1 = s.cdiv1 := rfl
@[simp] theorem State.drawPhase_n : (s.drawPhase).n = s.n := rfl
@[simp] theorem State.drawPhase_last : (s.drawPhase).last = s.last := rfl
@[simp] theorem State.drawPhase_p : (s.drawPhase).p = s.p := rfl
@[simp] theorem State.drawPhase_dur : (s.drawPhase).dur = s.dur := rfl
@[simp] theorem State.drawPhase_preg : (s.drawPhase).preg = s.preg := rfl
@[simp] theorem State.drawPhase_reps : (s.drawPhase).reps = s.reps := rfl
@[simp] theorem State.drawPhase_rep : (s.drawPhase).rep = s.rep := rfl
@[simp] theorem State.drawPhase_tim :
    (s.drawPhase).tim = if s.timerReachable then s.tim.startAt s.params (Config.draw s.draws) else s.tim := rfl
@[simp] theorem State.drawPhase_rccEn : (s.drawPhase).rccEn = s.rccEn := rfl
@[simp] theorem State.drawPhase_rccRst : (s.drawPhase).rccRst = s.rccRst := rfl
@[simp] theorem State.drawPhase_clkRun : (s.drawPhase).clkRun = s.clkRun := rfl
@[simp] theorem State.drawPhase_ownership : (s.drawPhase).ownership = s.ownership := rfl
@[simp] theorem State.drawPhase_hostUsed : (s.drawPhase).hostUsed = s.hostUsed := rfl
@[simp] theorem State.drawPhase_cutShort : (s.drawPhase).cutShort = s.cutShort := rfl
@[simp] theorem State.drawPhase_params : (s.drawPhase).params = s.params := rfl
@[simp] theorem State.drawPhase_inputs : (s.drawPhase).inputs = s.inputs := rfl
@[simp] theorem State.drawPhase_turn : (s.drawPhase).turn = s.turn := rfl
@[simp] theorem State.drawPhase_draws : (s.drawPhase).draws = if s.timerReachable then s.draws + 1 else s.draws := rfl
@[simp] theorem State.drawPhase_hostData : (s.drawPhase).hostData = s.hostData := rfl
@[simp] theorem State.drawPhase_busTrace : (s.drawPhase).busTrace = s.busTrace := rfl

/-! R225: REP counts. -/
@[simp] theorem State.countRepetition_life : (s.countRepetition).life = s.life := rfl
@[simp] theorem State.countRepetition_busy : (s.countRepetition).busy = s.busy := rfl
@[simp] theorem State.countRepetition_fault : (s.countRepetition).fault = s.fault := rfl
@[simp] theorem State.countRepetition_fcode : (s.countRepetition).fcode = s.fcode := rfl
@[simp] theorem State.countRepetition_arg : (s.countRepetition).arg = s.arg := rfl
@[simp] theorem State.countRepetition_usPsc : (s.countRepetition).usPsc = s.usPsc := rfl
@[simp] theorem State.countRepetition_msPsc : (s.countRepetition).msPsc = s.msPsc := rfl
@[simp] theorem State.countRepetition_upc : (s.countRepetition).upc = s.upc := rfl
@[simp] theorem State.countRepetition_cop : (s.countRepetition).cop = s.cop := rfl
@[simp] theorem State.countRepetition_cdiv1 : (s.countRepetition).cdiv1 = s.cdiv1 := rfl
@[simp] theorem State.countRepetition_n : (s.countRepetition).n = s.n := rfl
@[simp] theorem State.countRepetition_last : (s.countRepetition).last = s.last := rfl
@[simp] theorem State.countRepetition_p : (s.countRepetition).p = s.p := rfl
@[simp] theorem State.countRepetition_dur : (s.countRepetition).dur = s.dur := rfl
@[simp] theorem State.countRepetition_preg : (s.countRepetition).preg = s.preg := rfl
@[simp] theorem State.countRepetition_reps : (s.countRepetition).reps = s.reps := rfl
@[simp] theorem State.countRepetition_rep :
    (s.countRepetition).rep = if s.rep = 0x1FFFF#17 then s.freeBits 17 0 else s.rep + 1#17 := rfl
@[simp] theorem State.countRepetition_tim : (s.countRepetition).tim = s.tim := rfl
@[simp] theorem State.countRepetition_rccEn : (s.countRepetition).rccEn = s.rccEn := rfl
@[simp] theorem State.countRepetition_rccRst : (s.countRepetition).rccRst = s.rccRst := rfl
@[simp] theorem State.countRepetition_clkRun : (s.countRepetition).clkRun = s.clkRun := rfl
@[simp] theorem State.countRepetition_ownership : (s.countRepetition).ownership = s.ownership := rfl
@[simp] theorem State.countRepetition_hostUsed : (s.countRepetition).hostUsed = s.hostUsed := rfl
@[simp] theorem State.countRepetition_cutShort : (s.countRepetition).cutShort = s.cutShort := rfl
@[simp] theorem State.countRepetition_params : (s.countRepetition).params = s.params := rfl
@[simp] theorem State.countRepetition_inputs : (s.countRepetition).inputs = s.inputs := rfl
@[simp] theorem State.countRepetition_turn : (s.countRepetition).turn = s.turn := rfl
@[simp] theorem State.countRepetition_draws :
    (s.countRepetition).draws = if s.rep = 0x1FFFF#17 then s.draws + 1 else s.draws := rfl
@[simp] theorem State.countRepetition_hostData : (s.countRepetition).hostData = s.hostData := rfl
@[simp] theorem State.countRepetition_busTrace : (s.countRepetition).busTrace = s.busTrace := rfl

/-! Entries 16, 17: a free successor. -/
@[simp] theorem State.gotoFree_life : (s.gotoFree).life = s.life := rfl
@[simp] theorem State.gotoFree_busy : (s.gotoFree).busy = s.busy := rfl
@[simp] theorem State.gotoFree_fault : (s.gotoFree).fault = s.fault := rfl
@[simp] theorem State.gotoFree_fcode : (s.gotoFree).fcode = s.fcode := rfl
@[simp] theorem State.gotoFree_arg : (s.gotoFree).arg = s.arg := rfl
@[simp] theorem State.gotoFree_usPsc : (s.gotoFree).usPsc = s.usPsc := rfl
@[simp] theorem State.gotoFree_msPsc : (s.gotoFree).msPsc = s.msPsc := rfl
@[simp] theorem State.gotoFree_upc : (s.gotoFree).upc = microStates.getD (Config.draw s.draws % 15) Upc.idle := rfl
@[simp] theorem State.gotoFree_cop : (s.gotoFree).cop = s.cop := rfl
@[simp] theorem State.gotoFree_cdiv1 : (s.gotoFree).cdiv1 = s.cdiv1 := rfl
@[simp] theorem State.gotoFree_n : (s.gotoFree).n = s.n := rfl
@[simp] theorem State.gotoFree_last : (s.gotoFree).last = s.last := rfl
@[simp] theorem State.gotoFree_p : (s.gotoFree).p = s.p := rfl
@[simp] theorem State.gotoFree_dur : (s.gotoFree).dur = s.dur := rfl
@[simp] theorem State.gotoFree_preg : (s.gotoFree).preg = s.preg := rfl
@[simp] theorem State.gotoFree_reps : (s.gotoFree).reps = s.reps := rfl
@[simp] theorem State.gotoFree_rep : (s.gotoFree).rep = s.rep := rfl
@[simp] theorem State.gotoFree_tim : (s.gotoFree).tim = s.tim := rfl
@[simp] theorem State.gotoFree_rccEn : (s.gotoFree).rccEn = s.rccEn := rfl
@[simp] theorem State.gotoFree_rccRst : (s.gotoFree).rccRst = s.rccRst := rfl
@[simp] theorem State.gotoFree_clkRun : (s.gotoFree).clkRun = s.clkRun := rfl
@[simp] theorem State.gotoFree_ownership : (s.gotoFree).ownership = s.ownership := rfl
@[simp] theorem State.gotoFree_hostUsed : (s.gotoFree).hostUsed = s.hostUsed := rfl
@[simp] theorem State.gotoFree_cutShort : (s.gotoFree).cutShort = s.cutShort := rfl
@[simp] theorem State.gotoFree_params : (s.gotoFree).params = s.params := rfl
@[simp] theorem State.gotoFree_inputs : (s.gotoFree).inputs = s.inputs := rfl
@[simp] theorem State.gotoFree_turn : (s.gotoFree).turn = s.turn := rfl
@[simp] theorem State.gotoFree_draws : (s.gotoFree).draws = s.draws + 1 := rfl
@[simp] theorem State.gotoFree_hostData : (s.gotoFree).hostData = s.hostData := rfl
@[simp] theorem State.gotoFree_busTrace : (s.gotoFree).busTrace = s.busTrace := rfl

/-! R300: engine reset. -/
@[simp] theorem State.engineReset_life : (s.engineReset).life = false := rfl
@[simp] theorem State.engineReset_busy : (s.engineReset).busy = false := rfl
@[simp] theorem State.engineReset_fault : (s.engineReset).fault = false := rfl
@[simp] theorem State.engineReset_fcode : (s.engineReset).fcode = 0#4 := rfl
@[simp] theorem State.engineReset_arg : (s.engineReset).arg = 0#32 := rfl
@[simp] theorem State.engineReset_usPsc : (s.engineReset).usPsc = 0#32 := rfl
@[simp] theorem State.engineReset_msPsc : (s.engineReset).msPsc = 0#32 := rfl
@[simp] theorem State.engineReset_upc : (s.engineReset).upc = Upc.idle := rfl
@[simp] theorem State.engineReset_cop : (s.engineReset).cop = s.freeBits 8 0 := rfl
@[simp] theorem State.engineReset_cdiv1 : (s.engineReset).cdiv1 = s.freeBit 1 := rfl
@[simp] theorem State.engineReset_n : (s.engineReset).n = s.freeBits 32 2 := rfl
@[simp] theorem State.engineReset_last : (s.engineReset).last = s.freeBit 3 := rfl
@[simp] theorem State.engineReset_p : (s.engineReset).p = s.freeBits 32 4 := rfl
@[simp] theorem State.engineReset_dur : (s.engineReset).dur = s.freeBits 16 5 := rfl
@[simp] theorem State.engineReset_preg : (s.engineReset).preg = s.freeBits 16 6 := rfl
@[simp] theorem State.engineReset_reps :
    (s.engineReset).reps = BitVec.ofNat 17 (Config.draw (s.draws + 7) % 65536 + 1) := rfl
@[simp] theorem State.engineReset_rep :
    (s.engineReset).rep = BitVec.ofNat 17 (Config.draw (s.draws + 8) % 65537) := rfl
@[simp] theorem State.engineReset_tim : (s.engineReset).tim = s.tim := rfl
@[simp] theorem State.engineReset_rccEn : (s.engineReset).rccEn = s.rccEn := rfl
@[simp] theorem State.engineReset_rccRst : (s.engineReset).rccRst = s.rccRst := rfl
@[simp] theorem State.engineReset_clkRun : (s.engineReset).clkRun = s.clkRun := rfl
@[simp] theorem State.engineReset_ownership : (s.engineReset).ownership = s.ownership := rfl
@[simp] theorem State.engineReset_hostUsed : (s.engineReset).hostUsed = s.hostUsed := rfl
@[simp] theorem State.engineReset_cutShort : (s.engineReset).cutShort =
    (s.cutShort || s.busy || (s.fault && decide (s.fcode = faultCode .cmdWhileBusy))) := rfl
@[simp] theorem State.engineReset_params : (s.engineReset).params = s.params := rfl
@[simp] theorem State.engineReset_inputs : (s.engineReset).inputs = s.inputs := rfl
@[simp] theorem State.engineReset_turn : (s.engineReset).turn = s.turn := rfl
@[simp] theorem State.engineReset_draws : (s.engineReset).draws = s.draws + 9 := rfl
@[simp] theorem State.engineReset_hostData : (s.engineReset).hostData = s.hostData := rfl
@[simp] theorem State.engineReset_busTrace : (s.engineReset).busTrace = s.busTrace := rfl

/-! R301: system reset. -/
@[simp] theorem State.systemReset_life : (s.systemReset).life = false := rfl
@[simp] theorem State.systemReset_busy : (s.systemReset).busy = false := rfl
@[simp] theorem State.systemReset_fault : (s.systemReset).fault = false := rfl
@[simp] theorem State.systemReset_fcode : (s.systemReset).fcode = 0#4 := rfl
@[simp] theorem State.systemReset_arg : (s.systemReset).arg = 0#32 := rfl
@[simp] theorem State.systemReset_usPsc : (s.systemReset).usPsc = 0#32 := rfl
@[simp] theorem State.systemReset_msPsc : (s.systemReset).msPsc = 0#32 := rfl
@[simp] theorem State.systemReset_upc : (s.systemReset).upc = Upc.idle := rfl
@[simp] theorem State.systemReset_cop : (s.systemReset).cop = s.freeBits 8 0 := rfl
@[simp] theorem State.systemReset_cdiv1 : (s.systemReset).cdiv1 = s.freeBit 1 := rfl
@[simp] theorem State.systemReset_n : (s.systemReset).n = s.freeBits 32 2 := rfl
@[simp] theorem State.systemReset_last : (s.systemReset).last = s.freeBit 3 := rfl
@[simp] theorem State.systemReset_p : (s.systemReset).p = s.freeBits 32 4 := rfl
@[simp] theorem State.systemReset_dur : (s.systemReset).dur = s.freeBits 16 5 := rfl
@[simp] theorem State.systemReset_preg : (s.systemReset).preg = s.freeBits 16 6 := rfl
@[simp] theorem State.systemReset_reps :
    (s.systemReset).reps = BitVec.ofNat 17 (Config.draw (s.draws + 7) % 65536 + 1) := rfl
@[simp] theorem State.systemReset_rep :
    (s.systemReset).rep = BitVec.ofNat 17 (Config.draw (s.draws + 8) % 65537) := rfl
@[simp] theorem State.systemReset_tim : (s.systemReset).tim = Timer.atReset s.params := rfl
@[simp] theorem State.systemReset_rccEn : (s.systemReset).rccEn = false := rfl
@[simp] theorem State.systemReset_rccRst : (s.systemReset).rccRst = false := rfl
@[simp] theorem State.systemReset_clkRun : (s.systemReset).clkRun = s.clkRun := rfl
@[simp] theorem State.systemReset_ownership : (s.systemReset).ownership = s.ownership := rfl
@[simp] theorem State.systemReset_hostUsed : (s.systemReset).hostUsed = false := rfl
@[simp] theorem State.systemReset_cutShort : (s.systemReset).cutShort = false := rfl
@[simp] theorem State.systemReset_params : (s.systemReset).params = s.params := rfl
@[simp] theorem State.systemReset_inputs : (s.systemReset).inputs = s.inputs := rfl
@[simp] theorem State.systemReset_turn : (s.systemReset).turn = s.turn := rfl
@[simp] theorem State.systemReset_draws : (s.systemReset).draws = s.draws + 9 := rfl
@[simp] theorem State.systemReset_hostData : (s.systemReset).hostData = s.hostData := rfl
@[simp] theorem State.systemReset_busTrace : (s.systemReset).busTrace = s.busTrace := rfl

/-! R257: the outcome of a HOST access to the owned timer. -/
@[simp] theorem State.ownershipRace_life (b : Bool) : (s.ownershipRace b).life = s.life := rfl
@[simp] theorem State.ownershipRace_busy (b : Bool) : (s.ownershipRace b).busy = s.busy := rfl
@[simp] theorem State.ownershipRace_fault (b : Bool) : (s.ownershipRace b).fault = s.fault := rfl
@[simp] theorem State.ownershipRace_fcode (b : Bool) : (s.ownershipRace b).fcode = s.fcode := rfl
@[simp] theorem State.ownershipRace_arg (b : Bool) : (s.ownershipRace b).arg = s.arg := rfl
@[simp] theorem State.ownershipRace_usPsc (b : Bool) : (s.ownershipRace b).usPsc = s.usPsc := rfl
@[simp] theorem State.ownershipRace_msPsc (b : Bool) : (s.ownershipRace b).msPsc = s.msPsc := rfl
@[simp] theorem State.ownershipRace_upc (b : Bool) : (s.ownershipRace b).upc = s.upc := rfl
@[simp] theorem State.ownershipRace_cop (b : Bool) : (s.ownershipRace b).cop = s.cop := rfl
@[simp] theorem State.ownershipRace_cdiv1 (b : Bool) : (s.ownershipRace b).cdiv1 = s.cdiv1 := rfl
@[simp] theorem State.ownershipRace_n (b : Bool) : (s.ownershipRace b).n = s.n := rfl
@[simp] theorem State.ownershipRace_last (b : Bool) : (s.ownershipRace b).last = s.last := rfl
@[simp] theorem State.ownershipRace_p (b : Bool) : (s.ownershipRace b).p = s.p := rfl
@[simp] theorem State.ownershipRace_dur (b : Bool) : (s.ownershipRace b).dur = s.dur := rfl
@[simp] theorem State.ownershipRace_preg (b : Bool) : (s.ownershipRace b).preg = s.preg := rfl
@[simp] theorem State.ownershipRace_reps (b : Bool) : (s.ownershipRace b).reps = s.reps := rfl
@[simp] theorem State.ownershipRace_rep (b : Bool) : (s.ownershipRace b).rep = s.rep := rfl
@[simp] theorem State.ownershipRace_tim (b : Bool) : (s.ownershipRace b).tim = if s.freeBit 1 then Timer.atReset s.params else
      { cen := s.freeBit 2, dir := s.freeBit 3, uif := s.freeBit 4, cnt := s.freeBits 16 5, psc := s.freeBits 16 6,
        pscSh := if s.params.pscPreload then s.freeBits 16 7 else s.freeBits 16 6,
        arr := s.freeBits 16 8, pcnt := s.freeBits 17 9 } := rfl
@[simp] theorem State.ownershipRace_rccEn (b : Bool) : (s.ownershipRace b).rccEn = s.freeBit 0 := rfl
@[simp] theorem State.ownershipRace_rccRst (b : Bool) : (s.ownershipRace b).rccRst = s.freeBit 1 := rfl
@[simp] theorem State.ownershipRace_clkRun (b : Bool) : (s.ownershipRace b).clkRun = s.clkRun := rfl
@[simp] theorem State.ownershipRace_ownership (b : Bool) : (s.ownershipRace b).ownership = true := rfl
@[simp] theorem State.ownershipRace_hostUsed (b : Bool) : (s.ownershipRace b).hostUsed = s.hostUsed := rfl
@[simp] theorem State.ownershipRace_cutShort (b : Bool) : (s.ownershipRace b).cutShort = s.cutShort := rfl
@[simp] theorem State.ownershipRace_params (b : Bool) : (s.ownershipRace b).params = s.params := rfl
@[simp] theorem State.ownershipRace_inputs (b : Bool) : (s.ownershipRace b).inputs = s.inputs := rfl
@[simp] theorem State.ownershipRace_turn (b : Bool) : (s.ownershipRace b).turn = s.turn := rfl
@[simp] theorem State.ownershipRace_draws (b : Bool) : (s.ownershipRace b).draws = s.draws + 11 := rfl
@[simp] theorem State.ownershipRace_hostData (b : Bool) :
    (s.ownershipRace b).hostData = if b then some (s.freeBits 32 10) else s.hostData := rfl
@[simp] theorem State.ownershipRace_busTrace (b : Bool) : (s.ownershipRace b).busTrace = s.busTrace := rfl

/-! R229 (e): HOST's own use of the timer is recorded. -/
@[simp] theorem State.markHostUse_life : s.markHostUse.life = s.life := rfl
@[simp] theorem State.markHostUse_busy : s.markHostUse.busy = s.busy := rfl
@[simp] theorem State.markHostUse_fault : s.markHostUse.fault = s.fault := rfl
@[simp] theorem State.markHostUse_fcode : s.markHostUse.fcode = s.fcode := rfl
@[simp] theorem State.markHostUse_arg : s.markHostUse.arg = s.arg := rfl
@[simp] theorem State.markHostUse_usPsc : s.markHostUse.usPsc = s.usPsc := rfl
@[simp] theorem State.markHostUse_msPsc : s.markHostUse.msPsc = s.msPsc := rfl
@[simp] theorem State.markHostUse_upc : s.markHostUse.upc = s.upc := rfl
@[simp] theorem State.markHostUse_cop : s.markHostUse.cop = s.cop := rfl
@[simp] theorem State.markHostUse_cdiv1 : s.markHostUse.cdiv1 = s.cdiv1 := rfl
@[simp] theorem State.markHostUse_n : s.markHostUse.n = s.n := rfl
@[simp] theorem State.markHostUse_last : s.markHostUse.last = s.last := rfl
@[simp] theorem State.markHostUse_p : s.markHostUse.p = s.p := rfl
@[simp] theorem State.markHostUse_dur : s.markHostUse.dur = s.dur := rfl
@[simp] theorem State.markHostUse_preg : s.markHostUse.preg = s.preg := rfl
@[simp] theorem State.markHostUse_reps : s.markHostUse.reps = s.reps := rfl
@[simp] theorem State.markHostUse_rep : s.markHostUse.rep = s.rep := rfl
@[simp] theorem State.markHostUse_tim : s.markHostUse.tim = s.tim := rfl
@[simp] theorem State.markHostUse_rccEn : s.markHostUse.rccEn = s.rccEn := rfl
@[simp] theorem State.markHostUse_rccRst : s.markHostUse.rccRst = s.rccRst := rfl
@[simp] theorem State.markHostUse_clkRun : s.markHostUse.clkRun = s.clkRun := rfl
@[simp] theorem State.markHostUse_ownership : s.markHostUse.ownership = s.ownership := rfl
@[simp] theorem State.markHostUse_hostUsed : s.markHostUse.hostUsed = true := rfl
@[simp] theorem State.markHostUse_cutShort : s.markHostUse.cutShort = s.cutShort := rfl
@[simp] theorem State.markHostUse_params : s.markHostUse.params = s.params := rfl
@[simp] theorem State.markHostUse_inputs : s.markHostUse.inputs = s.inputs := rfl
@[simp] theorem State.markHostUse_turn : s.markHostUse.turn = s.turn := rfl
@[simp] theorem State.markHostUse_draws : s.markHostUse.draws = s.draws := rfl
@[simp] theorem State.markHostUse_hostData : s.markHostUse.hostData = s.hostData := rfl
@[simp] theorem State.markHostUse_busTrace : s.markHostUse.busTrace = s.busTrace := rfl

/-! R56, R57: an RCC bit by its name. -/
@[simp] theorem State.writeRccBit_en (v : Bool) : s.writeRccBit .en v = s.writeEn v := rfl
@[simp] theorem State.writeRccBit_rst (v : Bool) : s.writeRccBit .rst v = s.writeRst v := rfl
@[simp] theorem State.rccBit_en : s.rccBit .en = s.rccEn := rfl
@[simp] theorem State.rccBit_rst : s.rccBit .rst = s.rccRst := rfl

end StateUpdates

section TimerUpdates
variable (t : Timer)

/-! R217, R223, R225: CR1 is written. -/
@[simp] theorem Timer.setCr1_cen (d c : Bool) : (t.setCr1 d c).cen = c := rfl
@[simp] theorem Timer.setCr1_dir (d c : Bool) : (t.setCr1 d c).dir = d := rfl
@[simp] theorem Timer.setCr1_uif (d c : Bool) : (t.setCr1 d c).uif = t.uif := rfl
@[simp] theorem Timer.setCr1_cnt (d c : Bool) : (t.setCr1 d c).cnt = t.cnt := rfl
@[simp] theorem Timer.setCr1_psc (d c : Bool) : (t.setCr1 d c).psc = t.psc := rfl
@[simp] theorem Timer.setCr1_pscSh (d c : Bool) : (t.setCr1 d c).pscSh = t.pscSh := rfl
@[simp] theorem Timer.setCr1_arr (d c : Bool) : (t.setCr1 d c).arr = t.arr := rfl
@[simp] theorem Timer.setCr1_pcnt (d c : Bool) : (t.setCr1 d c).pcnt = t.pcnt := rfl

/-! R220, R268: PSC is written. -/
@[simp] theorem Timer.setPsc_cen (p : Params) (v : Half) : (Timer.setPsc p v t).cen = t.cen := rfl
@[simp] theorem Timer.setPsc_dir (p : Params) (v : Half) : (Timer.setPsc p v t).dir = t.dir := rfl
@[simp] theorem Timer.setPsc_uif (p : Params) (v : Half) : (Timer.setPsc p v t).uif = t.uif := rfl
@[simp] theorem Timer.setPsc_cnt (p : Params) (v : Half) : (Timer.setPsc p v t).cnt = t.cnt := rfl
@[simp] theorem Timer.setPsc_psc (p : Params) (v : Half) : (Timer.setPsc p v t).psc = v := rfl
@[simp] theorem Timer.setPsc_pscSh (p : Params) (v : Half) : (Timer.setPsc p v t).pscSh = if p.pscPreload then t.pscSh else v := rfl
@[simp] theorem Timer.setPsc_arr (p : Params) (v : Half) : (Timer.setPsc p v t).arr = t.arr := rfl
@[simp] theorem Timer.setPsc_pcnt (p : Params) (v : Half) : (Timer.setPsc p v t).pcnt = t.pcnt := rfl

/-! R221: UIF is cleared. -/
@[simp] theorem Timer.clearUif_cen : (t.clearUif).cen = t.cen := rfl
@[simp] theorem Timer.clearUif_dir : (t.clearUif).dir = t.dir := rfl
@[simp] theorem Timer.clearUif_uif : (t.clearUif).uif = false := rfl
@[simp] theorem Timer.clearUif_cnt : (t.clearUif).cnt = t.cnt := rfl
@[simp] theorem Timer.clearUif_psc : (t.clearUif).psc = t.psc := rfl
@[simp] theorem Timer.clearUif_pscSh : (t.clearUif).pscSh = t.pscSh := rfl
@[simp] theorem Timer.clearUif_arr : (t.clearUif).arr = t.arr := rfl
@[simp] theorem Timer.clearUif_pcnt : (t.clearUif).pcnt = t.pcnt := rfl

/-! R222: CNT is written. -/
@[simp] theorem Timer.setCnt_cen (v : Half) : (t.setCnt v).cen = t.cen := rfl
@[simp] theorem Timer.setCnt_dir (v : Half) : (t.setCnt v).dir = t.dir := rfl
@[simp] theorem Timer.setCnt_uif (v : Half) : (t.setCnt v).uif = t.uif := rfl
@[simp] theorem Timer.setCnt_cnt (v : Half) : (t.setCnt v).cnt = v := rfl
@[simp] theorem Timer.setCnt_psc (v : Half) : (t.setCnt v).psc = t.psc := rfl
@[simp] theorem Timer.setCnt_pscSh (v : Half) : (t.setCnt v).pscSh = t.pscSh := rfl
@[simp] theorem Timer.setCnt_arr (v : Half) : (t.setCnt v).arr = t.arr := rfl
@[simp] theorem Timer.setCnt_pcnt (v : Half) : (t.setCnt v).pcnt = t.pcnt := rfl

/-! R269: the update event. -/
@[simp] theorem Timer.update_cen (p : Params) : (Timer.update p t).cen = t.cen := rfl
@[simp] theorem Timer.update_dir (p : Params) : (Timer.update p t).dir = t.dir := rfl
@[simp] theorem Timer.update_uif (p : Params) : (Timer.update p t).uif = true := rfl
@[simp] theorem Timer.update_cnt (p : Params) : (Timer.update p t).cnt = t.cnt := rfl
@[simp] theorem Timer.update_psc (p : Params) : (Timer.update p t).psc = t.psc := rfl
@[simp] theorem Timer.update_pscSh (p : Params) : (Timer.update p t).pscSh = if p.pscPreload then t.psc else t.pscSh := rfl
@[simp] theorem Timer.update_arr (p : Params) : (Timer.update p t).arr = t.arr := rfl
@[simp] theorem Timer.update_pcnt (p : Params) : (Timer.update p t).pcnt = t.pcnt := rfl

/-! R267: the phase of a start. -/
@[simp] theorem Timer.startAt_cen (p : Params) (k : Nat) : (Timer.startAt p k t).cen = t.cen := rfl
@[simp] theorem Timer.startAt_dir (p : Params) (k : Nat) : (Timer.startAt p k t).dir = t.dir := rfl
@[simp] theorem Timer.startAt_uif (p : Params) (k : Nat) : (Timer.startAt p k t).uif = t.uif := rfl
@[simp] theorem Timer.startAt_cnt (p : Params) (k : Nat) : (Timer.startAt p k t).cnt = t.cnt := rfl
@[simp] theorem Timer.startAt_psc (p : Params) (k : Nat) : (Timer.startAt p k t).psc = t.psc := rfl
@[simp] theorem Timer.startAt_pscSh (p : Params) (k : Nat) : (Timer.startAt p k t).pscSh = t.pscSh := rfl
@[simp] theorem Timer.startAt_arr (p : Params) (k : Nat) : (Timer.startAt p k t).arr = t.arr := rfl
@[simp] theorem Timer.startAt_pcnt (p : Params) (k : Nat) : (Timer.startAt p k t).pcnt = BitVec.ofNat 17 (k % divisor p t.pscSh) := rfl

/-! R272: the values held in reset. -/
@[simp] theorem Timer.atReset_cen (p : Params) : (Timer.atReset p).cen = false := rfl
@[simp] theorem Timer.atReset_dir (p : Params) : (Timer.atReset p).dir = false := rfl
@[simp] theorem Timer.atReset_uif (p : Params) : (Timer.atReset p).uif = false := rfl
@[simp] theorem Timer.atReset_cnt (p : Params) : (Timer.atReset p).cnt = 0#16 := rfl
@[simp] theorem Timer.atReset_psc (p : Params) : (Timer.atReset p).psc = 0#16 := rfl
@[simp] theorem Timer.atReset_pscSh (p : Params) : (Timer.atReset p).pscSh = 0#16 := rfl
@[simp] theorem Timer.atReset_arr (p : Params) : (Timer.atReset p).arr = p.arrReset := rfl
@[simp] theorem Timer.atReset_pcnt (p : Params) : (Timer.atReset p).pcnt = 0#17 := rfl

end TimerUpdates

/-! R302: the state right after reset, field by field. -/
@[simp] theorem State.resetFor_life (ps : Params) : (State.resetFor ps).life = false := rfl
@[simp] theorem State.resetFor_busy (ps : Params) : (State.resetFor ps).busy = false := rfl
@[simp] theorem State.resetFor_fault (ps : Params) : (State.resetFor ps).fault = false := rfl
@[simp] theorem State.resetFor_fcode (ps : Params) : (State.resetFor ps).fcode = 0#4 := rfl
@[simp] theorem State.resetFor_arg (ps : Params) : (State.resetFor ps).arg = 0#32 := rfl
@[simp] theorem State.resetFor_usPsc (ps : Params) : (State.resetFor ps).usPsc = 0#32 := rfl
@[simp] theorem State.resetFor_msPsc (ps : Params) : (State.resetFor ps).msPsc = 0#32 := rfl
@[simp] theorem State.resetFor_upc (ps : Params) : (State.resetFor ps).upc = 0x00#8 := rfl
@[simp] theorem State.resetFor_cop (ps : Params) : (State.resetFor ps).cop = 0#8 := rfl
@[simp] theorem State.resetFor_cdiv1 (ps : Params) : (State.resetFor ps).cdiv1 = false := rfl
@[simp] theorem State.resetFor_n (ps : Params) : (State.resetFor ps).n = 0#32 := rfl
@[simp] theorem State.resetFor_last (ps : Params) : (State.resetFor ps).last = false := rfl
@[simp] theorem State.resetFor_p (ps : Params) : (State.resetFor ps).p = 0#32 := rfl
@[simp] theorem State.resetFor_dur (ps : Params) : (State.resetFor ps).dur = 0#16 := rfl
@[simp] theorem State.resetFor_preg (ps : Params) : (State.resetFor ps).preg = 0#16 := rfl
@[simp] theorem State.resetFor_reps (ps : Params) : (State.resetFor ps).reps = 1#17 := rfl
@[simp] theorem State.resetFor_rep (ps : Params) : (State.resetFor ps).rep = 0#17 := rfl
@[simp] theorem State.resetFor_tim (ps : Params) : (State.resetFor ps).tim = Timer.atReset ps := rfl
@[simp] theorem State.resetFor_rccEn (ps : Params) : (State.resetFor ps).rccEn = false := rfl
@[simp] theorem State.resetFor_rccRst (ps : Params) : (State.resetFor ps).rccRst = false := rfl
@[simp] theorem State.resetFor_clkRun (ps : Params) : (State.resetFor ps).clkRun = true := rfl
@[simp] theorem State.resetFor_ownership (ps : Params) : (State.resetFor ps).ownership = false := rfl
@[simp] theorem State.resetFor_hostUsed (ps : Params) : (State.resetFor ps).hostUsed = false := rfl
@[simp] theorem State.resetFor_cutShort (ps : Params) : (State.resetFor ps).cutShort = false := rfl
@[simp] theorem State.resetFor_params (ps : Params) : (State.resetFor ps).params = ps := rfl
@[simp] theorem State.resetFor_inputs (ps : Params) : (State.resetFor ps).inputs = [] := rfl
@[simp] theorem State.resetFor_turn (ps : Params) : (State.resetFor ps).turn = 0 := rfl
@[simp] theorem State.resetFor_draws (ps : Params) : (State.resetFor ps).draws = 0 := rfl
@[simp] theorem State.resetFor_hostData (ps : Params) : (State.resetFor ps).hostData = none := rfl
@[simp] theorem State.resetFor_busTrace (ps : Params) : (State.resetFor ps).busTrace = [] := rfl

/-- State.reset is the one with the defaults of R12 (R13). -/
theorem State.reset_eq : State.reset = State.resetFor Params.default := rfl

end Sys2Proof.Machine
end

