-- ==== Sys2Proof/Laws/Ops.lean ====
section
/-!
SUPPORT. One lemma per shared operation that says once everything it can do, for citation in place of unfolding it.
-/

namespace Sys2Proof.Machine

variable (s : State)

/-! ## Arithmetic as numbers (R138 to R140, R167, R191) -/

theorem fEff_le (p : Params) (pclk : Word) (div1 : Bool) : fEff p pclk div1 ≤ 2 * 4294967295 := by
  have := pclk.isLt
  unfold fEff clockMult
  split <;> split <;> omega

theorem usPrescaler_toNat {f : Nat} (h : f ≤ 2 * 4294967295) : (usPrescaler f).toNat = (f + 999999) / 1000000 := by
  unfold usPrescaler ceilDiv usDiv
  rw [BitVec.toNat_ofNat]
  omega

theorem msPrescaler_toNat {f : Nat} (h : f ≤ 2 * 4294967295) : (msPrescaler f).toNat = (f + 999) / 1000 := by
  unfold msPrescaler ceilDiv msDiv
  rw [BitVec.toNat_ofNat]
  omega

theorem splitReps_toNat (p : Word) : (splitReps p).toNat = p.toNat / 65536 + 1 := by
  have := p.isLt
  unfold splitReps
  simp only [BitVec.toNat_add, BitVec.toNat_setWidth, BitVec.toNat_ushiftRight, Nat.shiftRight_eq_div_pow,
    BitVec.toNat_ofNat]
  omega

theorem splitPreg_toNat (p : Word) : (splitPreg p).toNat = p.toNat % 65536 := by
  unfold splitPreg
  simp only [BitVec.toNat_setWidth, BitVec.toNat_and, BitVec.toNat_ofNat]
  rw [show 65535 % 2 ^ 32 = 2 ^ 16 - 1 from rfl, Nat.and_two_pow_sub_one_eq_mod]
  omega

theorem chunkIsLast_eq (n : Word) : chunkIsLast n = decide (n.toNat ≤ 65535) := rfl

theorem chunkDuration_toNat (n : Word) : (chunkDuration n).toNat = min n.toNat 65535 := by
  unfold chunkDuration
  rw [chunkIsLast_eq]
  by_cases h : n.toNat ≤ 65535
  · simp only [h, decide_true, if_true, BitVec.extractLsb'_toNat, Nat.shiftRight_zero]; omega
  · simp [h]; omega

theorem chunkRemainder_toNat (n : Word) : (chunkRemainder n).toNat = n.toNat - 65535 := by
  have := n.isLt
  unfold chunkRemainder chunkMax
  rw [chunkIsLast_eq]
  by_cases h : n.toNat ≤ 65535
  · simp only [h, decide_true, if_true, BitVec.toNat_ofNat]; omega
  · simp [h, BitVec.toNat_sub]; omega

/-! ## SEQ's accesses to the timer (R78, R93) -/

theorem cr1Word_down (p : Params) : cr1Word p true false = 1#32 <<< p.dirBit.val := by simp [cr1Word, bitAt]

theorem cr1Word_down_enabled (p : Params) :
    cr1Word p true true = 1#32 <<< p.dirBit.val ||| 1#32 <<< p.cenBit.val := rfl

theorem uifClearWord_eq (p : Params) : uifClearWord p = ~~~(1#32 <<< p.uifBit.val) := by
  unfold uifClearWord
  rw [show (0xFFFFFFFF#32) = BitVec.allOnes 32 from rfl, BitVec.allOnes_and]

theorem State.timerReachable_on (hen : s.rccEn = true) (hrst : s.rccRst = false) : s.timerReachable = true := by
  simp [State.timerReachable, hen, hrst]

theorem State.timerReachable_off (h : s.rccEn = false ∨ s.rccRst = true) : s.timerReachable = false := by
  rcases h with h | h <;> simp [State.timerReachable, h]

theorem State.timerReachable_iff : s.timerReachable = true ↔ s.rccEn = true ∧ s.rccRst = false := by
  simp [State.timerReachable]

theorem State.seqWrite_on (r : TimReg) (v : Word) (f : Timer → Timer) (h : s.timerReachable = true) :
    s.seqWrite r v f = { s with tim := f s.tim, busTrace := .memWrite r v :: s.busTrace } := by
  simp [State.seqWrite, State.timerWrite, State.logBus, h]

theorem State.seqWrite_off (r : TimReg) (v : Word) (f : Timer → Timer) (h : s.timerReachable = false) :
    s.seqWrite r v f = { s with busTrace := .memWrite r v :: s.busTrace } := by
  simp [State.seqWrite, State.timerWrite, State.logBus, h]

theorem Timer.startAt_pcnt_lt (p : Params) (k : Nat) (t : Timer) :
    (t.startAt p k).pcnt.toNat < divisor p t.pscSh := by
  have h1 : 1 ≤ divisor p t.pscSh := by unfold divisor; split <;> omega
  have h2 : divisor p t.pscSh ≤ 65536 := by have := t.pscSh.isLt; unfold divisor; split <;> omega
  have h3 := Nat.mod_lt k h1
  rw [Timer.startAt_pcnt, BitVec.toNat_ofNat]
  omega

/-! ## The command gate and the accepts (R259, R212) -/

theorem State.commandGate_cases (k : State → State) :
    (s.fault = true ∧ s.commandGate k = s) ∨
    (s.fault = false ∧ s.busy = true ∧ s.commandGate k = s.raiseFault .cmdWhileBusy) ∨
    (s.fault = false ∧ s.busy = false ∧ s.commandGate k = k s) := by
  unfold State.commandGate
  cases s.fault <;> cases s.busy <;> simp

theorem State.commandGate_idle (k : State → State) (hf : s.fault = false) (hb : s.busy = false) :
    s.commandGate k = k s := by simp [State.commandGate, hf, hb]

theorem State.commandGate_faulted (k : State → State) (hf : s.fault = true) : s.commandGate k = s := by
  simp [State.commandGate, hf]

theorem State.commandGate_busy (k : State → State) (hf : s.fault = false) (hb : s.busy = true) :
    s.commandGate k = s.raiseFault .cmdWhileBusy := by simp [State.commandGate, hf, hb]

theorem State.acceptInit_cases (pclk : Word) (div1 : Bool) :
    (s.life = true ∧ s.acceptInit pclk div1 = s.raiseFault .lifecycle) ∨
    (s.life = false ∧ 4294967296 ≤ fEff s.params pclk div1 ∧ s.acceptInit pclk div1 = s.raiseFault .domain) ∨
    (s.life = false ∧ fEff s.params pclk div1 < 4294967296 ∧ s.acceptInit pclk div1 =
      { s with life := true, busy := true, cop := 0x01#8, n := pclk, cdiv1 := div1, upc := Upc.enSet }) := by
  unfold State.acceptInit
  cases s.life with
  | true => exact .inl ⟨rfl, rfl⟩
  | false =>
    by_cases h : 4294967296 ≤ fEff s.params pclk div1
    · exact .inr (.inl ⟨rfl, h, by simp [h]⟩)
    · exact .inr (.inr ⟨rfl, by omega, by simp [h]⟩)

theorem State.acceptRelease_cases :
    (s.life = true ∧ s.acceptRelease = { s with busy := true, cop := 0x02#8, upc := Upc.rstSet }) ∨
    (s.life = false ∧ s.acceptRelease = s.raiseFault .lifecycle) := by
  unfold State.acceptRelease
  cases s.life <;> simp

theorem State.acceptDelay_cases (u : DelayUnit) (w : OperandWidth) (opc : Byte) (n : Word) :
    (w.admits n = false ∧ s.acceptDelay u w opc n = s.raiseFault .illegalCmd) ∨
    (w.admits n = true ∧ s.life = false ∧ s.acceptDelay u w opc n = s.raiseFault .lifecycle) ∨
    (w.admits n = true ∧ s.life = true ∧ s.acceptDelay u w opc n =
      { s with busy := true, cop := opc, n := n, p := s.prescalerOf u, upc := Upc.chunk }) := by
  unfold State.acceptDelay operandInRange
  cases w.admits n <;> cases s.life <;> simp

/-- The six delay commands are one accept, by unit and width (R160, R103). -/
theorem exec_delayInstr (u : DelayUnit) (w : OperandWidth) (n : Word) :
    exec (delayInstr u w n) s = .next (s.commandGate (State.acceptDelay u w (delayOpcode u w) n)) := by
  cases u <;> cases w <;> rfl

/-- A CMD write is always a gate over one of four ends (R212): INIT's accept, RELEASE's, a delay's, or ILLEGAL_CMD. -/
theorem State.issueCommand_cases (c : Word) :
    (decodeCommand c s.arg = .ok (.init s.arg (cmdDiv1 c)) ∧ cmdOpc c = 0x01#8 ∧
      s.issueCommand c = .next (s.commandGate (State.acceptInit s.arg (cmdDiv1 c)))) ∨
    (decodeCommand c s.arg = .ok .release ∧ cmdOpc c = 0x02#8 ∧
      s.issueCommand c = .next (s.commandGate State.acceptRelease)) ∨
    (∃ u w, decodeCommand c s.arg = .ok (delayInstr u w s.arg) ∧ cmdOpc c = delayOpcode u w ∧ w.admits s.arg = true ∧
      s.issueCommand c = .next (s.commandGate (State.acceptDelay u w (delayOpcode u w) s.arg))) ∨
    ((∃ e, decodeCommand c s.arg = .error e) ∧
      s.issueCommand c = .next (s.commandGate (State.raiseFault .illegalCmd))) := by
  unfold State.issueCommand
  cases hd : decodeCommand c s.arg with
  | error e => exact .inr (.inr (.inr ⟨⟨e, rfl⟩, rfl⟩))
  | ok i =>
    rcases decodeCommand_cases hd with ⟨rfl, ho⟩ | ⟨rfl, ho⟩ | ⟨u, w, rfl, ho, ha⟩
    · exact .inl ⟨rfl, ho, rfl⟩
    · exact .inr (.inl ⟨rfl, ho, rfl⟩)
    · exact .inr (.inr (.inl ⟨u, w, rfl, ho, ha, exec_delayInstr s u w s.arg⟩))

/-- Everything a CMD write can leave (R212, R251): nothing, one of the four faults, or the accept of a command. -/
theorem State.issueCommand_next (c : Word) :
    ∃ t, s.issueCommand c = .next t ∧
      ((s.fault = true ∧ t = s) ∨
       (s.fault = false ∧ s.busy = true ∧ t = s.raiseFault .cmdWhileBusy) ∨
       (s.fault = false ∧ s.busy = false ∧ ∃ cause, t = s.raiseFault cause) ∨
       (s.fault = false ∧ s.busy = false ∧ s.life = false ∧ cmdOpc c = 0x01#8 ∧
         fEff s.params s.arg (cmdDiv1 c) < 4294967296 ∧ t =
         { s with life := true, busy := true, cop := 0x01#8, n := s.arg, cdiv1 := cmdDiv1 c, upc := Upc.enSet }) ∨
       (s.fault = false ∧ s.busy = false ∧ s.life = true ∧ cmdOpc c = 0x02#8 ∧
         t = { s with busy := true, cop := 0x02#8, upc := Upc.rstSet }) ∨
       (s.fault = false ∧ s.busy = false ∧ s.life = true ∧ ∃ u w, cmdOpc c = delayOpcode u w ∧
         t = { s with busy := true, cop := delayOpcode u w, n := s.arg, p := s.prescalerOf u, upc := Upc.chunk })) := by
  have gate : ∀ k, (s.fault = true ∧ s.commandGate k = s) ∨
      (s.fault = false ∧ s.busy = true ∧ s.commandGate k = s.raiseFault .cmdWhileBusy) ∨
      (s.fault = false ∧ s.busy = false ∧ s.commandGate k = k s) := s.commandGate_cases
  rcases s.issueCommand_cases c with ⟨-, ho, h⟩ | ⟨-, ho, h⟩ | ⟨u, w, -, ho, hw, h⟩ | ⟨-, h⟩ <;> refine ⟨_, h, ?_⟩
  · rcases gate (State.acceptInit s.arg (cmdDiv1 c)) with ⟨hf, e⟩ | ⟨hf, hb, e⟩ | ⟨hf, hb, e⟩
    · exact .inl ⟨hf, e⟩
    · exact .inr (.inl ⟨hf, hb, e⟩)
    · rcases s.acceptInit_cases s.arg (cmdDiv1 c) with ⟨_, e'⟩ | ⟨_, _, e'⟩ | ⟨hl, hd, e'⟩
      · exact .inr (.inr (.inl ⟨hf, hb, _, e.trans e'⟩))
      · exact .inr (.inr (.inl ⟨hf, hb, _, e.trans e'⟩))
      · exact .inr (.inr (.inr (.inl ⟨hf, hb, hl, ho, hd, e.trans e'⟩)))
  · rcases gate State.acceptRelease with ⟨hf, e⟩ | ⟨hf, hb, e⟩ | ⟨hf, hb, e⟩
    · exact .inl ⟨hf, e⟩
    · exact .inr (.inl ⟨hf, hb, e⟩)
    · rcases s.acceptRelease_cases with ⟨hl, e'⟩ | ⟨_, e'⟩
      · exact .inr (.inr (.inr (.inr (.inl ⟨hf, hb, hl, ho, e.trans e'⟩))))
      · exact .inr (.inr (.inl ⟨hf, hb, _, e.trans e'⟩))
  · rcases gate (State.acceptDelay u w (delayOpcode u w) s.arg) with ⟨hf, e⟩ | ⟨hf, hb, e⟩ | ⟨hf, hb, e⟩
    · exact .inl ⟨hf, e⟩
    · exact .inr (.inl ⟨hf, hb, e⟩)
    · rcases s.acceptDelay_cases u w (delayOpcode u w) s.arg with ⟨_, e'⟩ | ⟨_, _, e'⟩ | ⟨_, hl, e'⟩
      · exact .inr (.inr (.inl ⟨hf, hb, _, e.trans e'⟩))
      · exact .inr (.inr (.inl ⟨hf, hb, _, e.trans e'⟩))
      · exact .inr (.inr (.inr (.inr (.inr ⟨hf, hb, hl, u, w, ho, e.trans e'⟩))))
  · rcases gate (State.raiseFault .illegalCmd) with ⟨hf, e⟩ | ⟨hf, hb, e⟩ | ⟨hf, hb, e⟩
    · exact .inl ⟨hf, e⟩
    · exact .inr (.inl ⟨hf, hb, e⟩)
    · exact .inr (.inr (.inl ⟨hf, hb, _, e⟩))

/-! ## Successors (R215, R225) -/

theorem State.gotoFree_upc_mem : s.gotoFree.upc ∈ microStates := by
  have h : Config.draw s.draws % 15 < 15 := Nat.mod_lt _ (by decide)
  have : ∀ k, k < 15 → microStates.getD k Upc.idle ∈ microStates := by decide
  exact this _ h

theorem State.afterResetPulse_cases :
    (s.cop = 0x01#8 ∧ s.afterResetPulse = { s with upc := Upc.dirDown }) ∨
    (s.cop = 0x02#8 ∧ s.afterResetPulse = { s with upc := Upc.enClr }) ∨
    (s.cop ≠ 0x01#8 ∧ s.cop ≠ 0x02#8 ∧ s.afterResetPulse = s.gotoFree) := by
  unfold State.afterResetPulse
  by_cases h1 : s.cop = 0x01#8
  · exact .inl ⟨h1, by simp [h1]⟩
  · by_cases h2 : s.cop = 0x02#8
    · exact .inr (.inl ⟨h2, by simp [h2]⟩)
    · exact .inr (.inr ⟨h1, h2, by simp [h1, h2]⟩)

theorem State.afterRepetition_cases :
    (s.rep.toNat < s.reps.toNat ∧ s.afterRepetition = { s with upc := Upc.uifClr }) ∨
    (s.rep = s.reps ∧ s.last = true ∧ s.afterRepetition = { s with upc := Upc.idle, busy := false }) ∨
    (s.rep = s.reps ∧ s.last = false ∧ s.afterRepetition = { s with upc := Upc.chunk }) ∨
    (s.reps.toNat < s.rep.toNat ∧ s.afterRepetition = s.gotoFree) := by
  unfold State.afterRepetition
  by_cases h1 : s.rep.toNat < s.reps.toNat
  · exact .inl ⟨h1, by simp [h1]⟩
  · by_cases h2 : s.rep = s.reps
    · cases hl : s.last with
      | true => exact .inr (.inl ⟨h2, rfl, by simp [h2]⟩)
      | false => exact .inr (.inr (.inl ⟨h2, rfl, by simp [h2]⟩))
    · refine .inr (.inr (.inr ⟨?_, by simp [h1, h2]⟩))
      have : s.rep.toNat ≠ s.reps.toNat := fun h => h2 (BitVec.eq_of_toNat_eq h)
      omega

/-- Inside a repetition REP counts without leaving its width. -/
theorem State.countRepetition_rep_of_lt (h : s.rep.toNat < s.reps.toNat) :
    s.countRepetition.rep.toNat = s.rep.toNat + 1 ∧ s.countRepetition.draws = s.draws := by
  have hr := s.reps.isLt
  have hne : s.rep ≠ 0x1FFFF#17 := by
    intro e; rw [e] at h; simp at h; omega
  simp only [State.countRepetition_rep, State.countRepetition_draws, hne, if_false, and_true]
  rw [BitVec.toNat_add]
  simp
  omega

/-! ## The timer -/

theorem divisor_pos (p : Params) (v : Half) : 1 ≤ divisor p v := by
  unfold divisor; split <;> omega

theorem divisor_le (p : Params) (v : Half) : divisor p v ≤ 65536 := by
  have := v.isLt
  unfold divisor; split <;> omega

theorem Timer.tick_frame (p : Params) (t : Timer) :
    (t.tick p).cen = t.cen ∧ (t.tick p).dir = t.dir ∧ (t.tick p).psc = t.psc ∧ (t.tick p).arr = t.arr ∧
    (t.tick p).pcnt = t.pcnt ∧ (t.uif = true → (t.tick p).uif = true) := by
  unfold Timer.tick
  repeat' split
  all_goals simp

theorem Timer.tick_pscSh (p : Params) (t : Timer) (hp : p.pscPreload = false) : (t.tick p).pscSh = t.pscSh := by
  unfold Timer.tick
  repeat' split
  all_goals simp [hp]

theorem Timer.cycle_frame (p : Params) (t : Timer) :
    (t.cycle p).cen = t.cen ∧ (t.cycle p).dir = t.dir ∧ (t.cycle p).psc = t.psc ∧ (t.cycle p).arr = t.arr ∧
    (t.uif = true → (t.cycle p).uif = true) := by
  unfold Timer.cycle
  split
  · simp
  · obtain ⟨h1, h2, h3, h4, -, h6⟩ := Timer.tick_frame p { t with pcnt := 0#17 }
    exact ⟨h1, h2, h3, h4, h6⟩

theorem Timer.cycle_pscSh (p : Params) (t : Timer) (hp : p.pscPreload = false) : (t.cycle p).pscSh = t.pscSh := by
  unfold Timer.cycle
  split
  · rfl
  · rw [Timer.tick_pscSh p _ hp]

theorem Timer.writeWord_pscSh (p : Params) (r : TimReg) (v : Word) (t : Timer) (hp : p.pscPreload = false)
    (h : t.pscSh = t.psc) : (Timer.writeWord p r v t).pscSh = (Timer.writeWord p r v t).psc := by
  cases r <;> simp only [Timer.writeWord]
  · simpa using h
  · split <;> simpa using h
  · simpa using h
  · simp [hp]
  · exact h

/-- What TIM's turn can leave (R271). -/
theorem State.timTurn_next {s t : State} (h : s.timTurn = .next t) :
    (s.counting = false ∧ t = s) ∨
    (s.counting = true ∧ s.tim.dir = true ∧ t = { s with tim := s.tim.cycle s.params }) := by
  unfold State.timTurn at h
  cases hc : s.counting <;> simp only [hc] at h
  · exact .inl ⟨rfl, by simpa using h.symm⟩
  · cases hd : s.tim.dir <;> simp only [hd] at h
    · simp at h
    · exact .inr ⟨rfl, rfl, by simpa using h.symm⟩

/-! ## HOST accesses -/

theorem wholeWord_next {off : Nat} {size : AccessSize} {k : Host.Outcome State Fault Refusal} {t : State}
    (h : wholeWord off size k = .next t) : size = .word ∧ off % 4 = 0 ∧ k = .next t := by
  unfold wholeWord at h
  split at h
  · cases h
  · split at h
    · cases h
    · exact ⟨by simpa using ‹¬ size ≠ .word›, by omega, h⟩

theorem State.readController_next {s t : State} {off : Nat} {size : AccessSize}
    (h : s.readController off size = .next t) : ∃ v, t = { s with hostData := some v } := by
  obtain ⟨-, -, h⟩ := wholeWord_next h
  unfold State.returns at h
  repeat' split at h
  all_goals first
    | (cases h; done)
    | exact ⟨_, (Host.Outcome.next.inj h).symm⟩

theorem State.writeController_next {s t : State} {off : Nat} {size : AccessSize} {v : Word}
    {issue : Host.Outcome State Fault Refusal} (h : s.writeController off size v issue = .next t) :
    size = .word ∧ ((off = cmdOff ∧ issue = .next t) ∨ (off = argOff ∧ t = { s with arg := v })) := by
  obtain ⟨hs, -, h⟩ := wholeWord_next h
  refine ⟨hs, ?_⟩
  split at h
  · exact .inl ⟨‹_›, h⟩
  · split at h
    · exact .inr ⟨‹_›, (Host.Outcome.next.inj h).symm⟩
    · split at h
      · cases h
      · split at h <;> cases h

theorem State.readTimer_next {s t : State} {off : Nat} {size : AccessSize} (h : s.readTimer off size = .next t) :
    (s.owned = true ∧ t = s.ownershipRace true) ∨
    (s.owned = false ∧ ∃ v d, t = { s with hostData := some v, draws := d }) := by
  unfold State.readTimer at h
  cases ho : s.owned <;> simp only [ho] at h
  · refine .inr ⟨rfl, ?_⟩
    cases hr : s.timerReachable <;> simp only [hr] at h
    · exact ⟨_, s.draws, (Host.Outcome.next.inj h).symm⟩
    · obtain ⟨-, -, h⟩ := wholeWord_next h
      split at h
      · exact ⟨_, _, (Host.Outcome.next.inj h).symm⟩
      · cases h
  · exact .inl ⟨rfl, (Host.Outcome.next.inj h).symm⟩

/-- What a HOST write to a timer register changes: the timer, where it answers, the draw counter, and the record of the
use. -/
theorem State.writeTimerReg_eq (r : TimReg) (v : Word) :
    ∃ tim' d, s.writeTimerReg r v = { s with tim := tim', draws := d, hostUsed := true } ∧
      (s.timerReachable = false → tim' = s.tim) ∧
      (s.params.pscPreload = false → s.tim.pscSh = s.tim.psc → tim'.pscSh = tim'.psc) := by
  unfold State.writeTimerReg
  cases hr : s.timerReachable with
  | false =>
    refine ⟨s.tim, s.draws, ?_, fun _ => rfl, fun _ h => h⟩
    simp [State.timerWrite, State.markHostUse, hr]
  | true =>
    have hw := fun hp hq => Timer.writeWord_pscSh s.params r v s.tim hp hq
    dsimp only
    split
    · refine ⟨_, _, rfl, by simp, fun hp hq => ?_⟩
      simp only [State.markHostUse_tim, State.timerWrite_tim, hr, if_true]
      split
      · simpa using hw hp hq
      · exact hw hp hq
    · refine ⟨_, s.draws, rfl, by simp, fun hp hq => ?_⟩
      simpa [hr] using hw hp hq

theorem State.writeTimer_next {s t : State} {off : Nat} {size : AccessSize} {v : Word}
    (h : s.writeTimer off size v = .next t) :
    (s.owned = true ∧ t = s.ownershipRace false) ∨ (s.owned = false ∧ s.timerReachable = false ∧ t = s) ∨
    (s.owned = false ∧ s.timerReachable = true ∧ ∃ r, t = s.writeTimerReg r v) := by
  unfold State.writeTimer at h
  cases ho : s.owned <;> simp only [ho] at h
  · cases hr : s.timerReachable <;> simp only [hr] at h
    · exact .inr (.inl ⟨rfl, rfl, (Host.Outcome.next.inj h).symm⟩)
    · refine .inr (.inr ⟨rfl, rfl, ?_⟩)
      obtain ⟨-, -, h⟩ := wholeWord_next h
      split at h
      · exact ⟨_, (Host.Outcome.next.inj h).symm⟩
      · cases h
  · exact .inl ⟨rfl, (Host.Outcome.next.inj h).symm⟩

/-- What HOST's own use of the RCC bits can leave: RST written 1 with the timer at its reset values (R272), RST written 0, or
RST as it was. -/
def RccUse (s t : State) : Prop :=
  ∃ en rst tim', t = { s with rccEn := en, rccRst := rst, tim := tim', hostUsed := true } ∧
    ((rst = true ∧ tim' = Timer.atReset s.params) ∨ (rst = false ∧ tim' = s.tim) ∨ (rst = s.rccRst ∧ tim' = s.tim))

theorem State.writeRccBit_use (b : RccBit) (v : Bool) : RccUse s (s.writeRccBit b v).markHostUse := by
  cases b with
  | en => exact ⟨v, s.rccRst, s.tim, rfl, .inr (.inr ⟨rfl, rfl⟩)⟩
  | rst =>
    cases v with
    | true => exact ⟨s.rccEn, true, _, rfl, .inl ⟨rfl, rfl⟩⟩
    | false => exact ⟨s.rccEn, false, _, rfl, .inr (.inl ⟨rfl, rfl⟩)⟩

theorem State.takeRccBit_eq (pl : Platform) (r b : RccBit) (v : Word) :
    s.takeRccBit pl r b v = s ∨ s.takeRccBit pl r b v = s.writeRccBit b (v.getLsbD (pl.rccBit b).val) := by
  unfold State.takeRccBit
  split
  · exact .inr rfl
  · exact .inl rfl

/-- Writing RCC.EN first changes nothing that writing RCC.RST depends on. -/
theorem State.writeEn_use (en : Bool) {t : State} (h : RccUse (s.writeEn en) t) : RccUse s t := by
  obtain ⟨en', rst, tim', rfl, h⟩ := h
  exact ⟨en', rst, tim', rfl, h⟩

theorem State.markHostUse_use : RccUse s s.markHostUse := ⟨s.rccEn, s.rccRst, s.tim, rfl, .inr (.inr ⟨rfl, rfl⟩)⟩

theorem wholeRegister_next {off : Nat} {size : AccessSize} {k : Host.Outcome State Fault Refusal} {t : State}
    (h : wholeRegister off size k = .next t) : k = .next t := by
  obtain ⟨-, -, h⟩ := wholeWord_next h
  split at h
  · exact h
  · cases h

theorem State.readRcc_next {s t : State} {r : RccBit} {off : Nat} {size : AccessSize}
    (h : s.readRcc r off size = .next t) :
    (s.owned = true ∧ t = s.ownershipRace true) ∨
    (s.owned = false ∧ ∃ v d, t = { s with hostData := some v, draws := d }) := by
  unfold State.readRcc at h
  cases ho : s.owned <;> simp only [ho] at h
  · exact .inr ⟨rfl, _, _, (Host.Outcome.next.inj (wholeRegister_next h)).symm⟩
  · exact .inl ⟨rfl, (Host.Outcome.next.inj h).symm⟩

theorem State.writeRcc_next {s t : State} {r : RccBit} {off : Nat} {size : AccessSize} {v : Word}
    (h : s.writeRcc r off size v = .next t) :
    (s.owned = true ∧ t = s.ownershipRace false) ∨ (s.owned = false ∧ RccUse s t) := by
  unfold State.writeRcc at h
  cases ho : s.owned <;> simp only [ho] at h
  · refine .inr ⟨rfl, ?_⟩
    rw [← Host.Outcome.next.inj (wholeRegister_next h)]
    rcases s.takeRccBit_eq Config.platform r .en v with e | e <;> rw [e] <;>
      rcases State.takeRccBit_eq _ Config.platform r .rst v with e' | e' <;> rw [e']
    · exact s.markHostUse_use
    · exact s.writeRccBit_use .rst _
    · exact s.writeRccBit_use .en _
    · exact s.writeEn_use _ (State.writeRccBit_use _ .rst _)
  · exact .inl ⟨rfl, (Host.Outcome.next.inj h).symm⟩

theorem State.hostRcc_cases (b : RccBit) (v : Bool) :
    (s.owned = true ∧ s.hostRcc b v = s.ownershipRace false) ∨ (s.owned = false ∧ RccUse s (s.hostRcc b v)) := by
  unfold State.hostRcc
  cases s.owned
  · exact .inr ⟨rfl, s.writeRccBit_use b v⟩
  · exact .inl ⟨rfl, rfl⟩

/-! ## The platform (R85) -/

/-- The platform meets R85. -/
theorem Config.platform_wf : Config.platform.wf = true := by
  unfold Config.platform
  split
  · assumption
  · decide

end Sys2Proof.Machine
end

