-- ==== Sys2Proof/Laws/PerInstr.lean ====
section
/-!
SUPPORT. The family EncodingInTable: the encoding of every instruction matches its row of spec/opcode_table.json, its mask
and its match value (30_encoding.md R102, R109).
-/

namespace Sys2Proof.Laws

/-- A row of the opcode table: mask and match value of a command word or of a micro-state code. -/
inductive TableRow
  | host (mask value : Word)
  | uop (mask value : Byte)
deriving DecidableEq, Repr

/-- The row of an instruction. -/
def tableRow : Instr → TableRow
  | .init _ _ => .host 0xFFFFFEFF#32 0x00000001#32
  | .release => .host 0xFFFFFFFF#32 0x00000002#32
  | .delayMs8 _ => .host 0xFFFFFFFF#32 0x00000010#32
  | .delayMs16 _ => .host 0xFFFFFFFF#32 0x00000011#32
  | .delayMs32 _ => .host 0xFFFFFFFF#32 0x00000012#32
  | .delayUs8 _ => .host 0xFFFFFFFF#32 0x00000018#32
  | .delayUs16 _ => .host 0xFFFFFFFF#32 0x00000019#32
  | .delayUs32 _ => .host 0xFFFFFFFF#32 0x0000001A#32
  | .uopIdle => .uop 0xFF#8 0x00#8
  | .uopEnSet => .uop 0xFF#8 0x01#8
  | .uopRstSet => .uop 0xFF#8 0x02#8
  | .uopRstClr => .uop 0xFF#8 0x03#8
  | .uopEnClr => .uop 0xFF#8 0x04#8
  | .uopDirDown => .uop 0xFF#8 0x05#8
  | .uopCalc => .uop 0xFF#8 0x06#8
  | .uopChunk => .uop 0xFF#8 0x10#8
  | .uopPscWr => .uop 0xFF#8 0x11#8
  | .uopUifClr => .uop 0xFF#8 0x12#8
  | .uopCntWr => .uop 0xFF#8 0x13#8
  | .uopCenSet => .uop 0xFF#8 0x14#8
  | .uopUifPoll => .uop 0xFF#8 0x15#8
  | .uopCenClr => .uop 0xFF#8 0x16#8
  | .uopFault => .uop 0xFF#8 0x3F#8

/-- An encoded instruction matches a row. -/
def TableRow.admits : TableRow → Encoded → Bool
  | .host mask value, .command c _ => c &&& mask == value
  | .uop mask value, .micro u => u &&& mask == value
  | .host _ _, .micro _ => false
  | .uop _ _, .command _ _ => false

/-- The encoding of `i` matches its row. -/
def EncodingInTable.Statement (i : Instr) : Prop := (tableRow i).admits (encode i) = true

theorem EncodingInTable.init (pclk : Word) (div1 : Bool) : EncodingInTable.Statement (.init pclk div1) := by cases div1 <;> rfl
theorem EncodingInTable.release : EncodingInTable.Statement .release := rfl
theorem EncodingInTable.delayMs8 (n : Word) : EncodingInTable.Statement (.delayMs8 n) := rfl
theorem EncodingInTable.delayMs16 (n : Word) : EncodingInTable.Statement (.delayMs16 n) := rfl
theorem EncodingInTable.delayMs32 (n : Word) : EncodingInTable.Statement (.delayMs32 n) := rfl
theorem EncodingInTable.delayUs8 (n : Word) : EncodingInTable.Statement (.delayUs8 n) := rfl
theorem EncodingInTable.delayUs16 (n : Word) : EncodingInTable.Statement (.delayUs16 n) := rfl
theorem EncodingInTable.delayUs32 (n : Word) : EncodingInTable.Statement (.delayUs32 n) := rfl
theorem EncodingInTable.uopIdle : EncodingInTable.Statement .uopIdle := rfl
theorem EncodingInTable.uopEnSet : EncodingInTable.Statement .uopEnSet := rfl
theorem EncodingInTable.uopRstSet : EncodingInTable.Statement .uopRstSet := rfl
theorem EncodingInTable.uopRstClr : EncodingInTable.Statement .uopRstClr := rfl
theorem EncodingInTable.uopEnClr : EncodingInTable.Statement .uopEnClr := rfl
theorem EncodingInTable.uopDirDown : EncodingInTable.Statement .uopDirDown := rfl
theorem EncodingInTable.uopCalc : EncodingInTable.Statement .uopCalc := rfl
theorem EncodingInTable.uopChunk : EncodingInTable.Statement .uopChunk := rfl
theorem EncodingInTable.uopPscWr : EncodingInTable.Statement .uopPscWr := rfl
theorem EncodingInTable.uopUifClr : EncodingInTable.Statement .uopUifClr := rfl
theorem EncodingInTable.uopCntWr : EncodingInTable.Statement .uopCntWr := rfl
theorem EncodingInTable.uopCenSet : EncodingInTable.Statement .uopCenSet := rfl
theorem EncodingInTable.uopUifPoll : EncodingInTable.Statement .uopUifPoll := rfl
theorem EncodingInTable.uopCenClr : EncodingInTable.Statement .uopCenClr := rfl
theorem EncodingInTable.uopFault : EncodingInTable.Statement .uopFault := rfl

end Sys2Proof.Laws
end

