-- ==== Sys2Proof/Laws/Step.lean ====
section
/-!
SUPPORT. Inversion of a SEQ turn and of an event: everything one step can do, said once, each case under the name of what
happens. A proof takes the cases by name.
-/

namespace Sys2Proof.Machine

/-- Everything a SEQ turn can leave: one case per code of R109, under the micro-state it runs in. -/
inductive SeqTurnCase (s t : State) : Prop
  | uopIdle (code : s.upc = Upc.idle) (leaves : t = s)
  | uopEnSet (code : s.upc = Upc.enSet)
      (leaves : t = { (s.writeEn true).logBus (.atomicSet .en) with upc := Upc.rstSet })
  | uopRstSet (code : s.upc = Upc.rstSet)
      (leaves : t = { (s.writeRst true).logBus (.atomicSet .rst) with upc := Upc.rstClr })
  | uopRstClr (code : s.upc = Upc.rstClr)
      (leaves : t = ((s.writeRst false).logBus (.atomicClear .rst)).afterResetPulse)
  | uopEnClr (code : s.upc = Upc.enClr)
      (leaves : t =
        { (s.writeEn false).logBus (.atomicClear .en) with life := false, busy := false, upc := Upc.idle })
  | uopDirDown (code : s.upc = Upc.dirDown)
      (leaves : t =
        { s.seqWrite .cr1 (cr1Word s.params true false) (Timer.setCr1 true false) with upc := Upc.calc })
  | uopCalc (code : s.upc = Upc.calc)
      (leaves : t = { s with
        usPsc := usPrescaler (fEff s.params s.n s.cdiv1), msPsc := msPrescaler (fEff s.params s.n s.cdiv1),
        busy := false, upc := Upc.idle })
  | uopChunk (code : s.upc = Upc.chunk)
      (leaves : t = { s with
        dur := chunkDuration s.n, n := chunkRemainder s.n, last := chunkIsLast s.n, upc := Upc.pscWr })
  | uopPscWr (code : s.upc = Upc.pscWr)
      (leaves : t =
        { s.seqWrite .psc ((splitPreg s.p).setWidth 32) (Timer.setPsc s.params (splitPreg s.p)) with
          reps := splitReps s.p, preg := splitPreg s.p, rep := 0#17, upc := Upc.uifClr })
  | uopUifClr (code : s.upc = Upc.uifClr)
      (leaves : t = { s.seqWrite .sr (uifClearWord s.params) Timer.clearUif with upc := Upc.cntWr })
  | uopCntWr (code : s.upc = Upc.cntWr)
      (leaves : t = { s.seqWrite .cnt (s.dur.setWidth 32) (Timer.setCnt s.dur) with upc := Upc.cenSet })
  | uopCenSet (code : s.upc = Upc.cenSet)
      (leaves : t =
        { (s.seqWrite .cr1 (cr1Word s.params true true) (Timer.setCr1 true true)).drawPhase with
          upc := Upc.uifPoll })
  | uopUifPoll (code : s.upc = Upc.uifPoll)
      (leaves : t = { s.logBus (.memRead .sr) with upc := if s.pollUif then Upc.cenClr else Upc.uifPoll })
  | uopCenClr (code : s.upc = Upc.cenClr)
      (leaves : t =
        (s.seqWrite .cr1 (cr1Word s.params true false) (Timer.setCr1 true false)).countRepetition.afterRepetition)
  | uopFault (code : s.upc = Upc.fault) (leaves : t = s)

/-- A SEQ turn that goes on is one of its cases. -/
theorem State.seqTurn_next {s t : State} (h : s.seqTurn = .next t) : SeqTurnCase s t := by
  unfold State.seqTurn at h
  cases hd : decodeMicro s.upc with
  | error e => rw [hd] at h; cases h
  | ok i =>
    rw [hd] at h
    have hu := decodeMicro_encode hd
    cases i
    case uopIdle => exact .uopIdle (Encoded.micro.inj hu).symm (Host.Outcome.next.inj h).symm
    case uopEnSet => exact .uopEnSet (Encoded.micro.inj hu).symm (Host.Outcome.next.inj h).symm
    case uopRstSet => exact .uopRstSet (Encoded.micro.inj hu).symm (Host.Outcome.next.inj h).symm
    case uopRstClr => exact .uopRstClr (Encoded.micro.inj hu).symm (Host.Outcome.next.inj h).symm
    case uopEnClr => exact .uopEnClr (Encoded.micro.inj hu).symm (Host.Outcome.next.inj h).symm
    case uopDirDown => exact .uopDirDown (Encoded.micro.inj hu).symm (Host.Outcome.next.inj h).symm
    case uopCalc => exact .uopCalc (Encoded.micro.inj hu).symm (Host.Outcome.next.inj h).symm
    case uopChunk => exact .uopChunk (Encoded.micro.inj hu).symm (Host.Outcome.next.inj h).symm
    case uopPscWr => exact .uopPscWr (Encoded.micro.inj hu).symm (Host.Outcome.next.inj h).symm
    case uopUifClr => exact .uopUifClr (Encoded.micro.inj hu).symm (Host.Outcome.next.inj h).symm
    case uopCntWr => exact .uopCntWr (Encoded.micro.inj hu).symm (Host.Outcome.next.inj h).symm
    case uopCenSet => exact .uopCenSet (Encoded.micro.inj hu).symm (Host.Outcome.next.inj h).symm
    case uopUifPoll => exact .uopUifPoll (Encoded.micro.inj hu).symm (Host.Outcome.next.inj h).symm
    case uopCenClr => exact .uopCenClr (Encoded.micro.inj hu).symm (Host.Outcome.next.inj h).symm
    case uopFault => exact .uopFault (Encoded.micro.inj hu).symm (Host.Outcome.next.inj h).symm
    all_goals cases hu

/-- What the successor choices of RST_CLR and CEN_CLR leave alone. -/
theorem State.afterResetPulse_frame (s : State) :
    ∃ u d, s.afterResetPulse = { s with upc := u, draws := d } ∧ u ∈ microStates := by
  rcases s.afterResetPulse_cases with ⟨-, e⟩ | ⟨-, e⟩ | ⟨-, -, e⟩
  · exact ⟨Upc.dirDown, s.draws, e, by decide⟩
  · exact ⟨Upc.enClr, s.draws, e, by decide⟩
  · exact ⟨_, _, e, s.gotoFree_upc_mem⟩

theorem State.afterRepetition_frame (s : State) :
    ∃ u d b, s.afterRepetition = { s with upc := u, draws := d, busy := b } ∧ u ∈ microStates := by
  rcases s.afterRepetition_cases with ⟨-, e⟩ | ⟨-, -, e⟩ | ⟨-, -, e⟩ | ⟨-, e⟩
  · exact ⟨Upc.uifClr, s.draws, s.busy, e, by decide⟩
  · exact ⟨Upc.idle, s.draws, false, e, by decide⟩
  · exact ⟨Upc.chunk, s.draws, s.busy, e, by decide⟩
  · exact ⟨_, _, s.busy, e, s.gotoFree_upc_mem⟩

/-- What no SEQ turn changes: no micro-op raises a fault (R251) or touches ARG, an input or the OWNERSHIP record. -/
theorem State.seqTurn_frame {s t : State} (h : s.seqTurn = .next t) :
    t.fault = s.fault ∧ t.fcode = s.fcode ∧ t.arg = s.arg ∧ t.clkRun = s.clkRun ∧ t.ownership = s.ownership ∧
    t.hostUsed = s.hostUsed ∧ t.cutShort = s.cutShort ∧ t.params = s.params ∧ t.inputs = s.inputs ∧
    t.turn = s.turn ∧ t.hostData = s.hostData ∧ t.cop = s.cop ∧ t.cdiv1 = s.cdiv1 ∧ t.p = s.p := by
  cases State.seqTurn_next h
  case uopRstClr _ e =>
    obtain ⟨u, d, e', -⟩ := State.afterResetPulse_frame ((s.writeRst false).logBus (.atomicClear .rst))
    rw [e, e']; simp
  case uopCenClr _ e =>
    obtain ⟨u, d, b, e', -⟩ := State.afterRepetition_frame
      (s.seqWrite .cr1 (cr1Word s.params true false) (Timer.setCr1 true false)).countRepetition
    rw [e, e']; simp
  all_goals
    rename_i e
    rw [e]; simp

/-- What no CMD write changes: the timer, the RCC bits, the prescalers and the inputs (R106, R251). -/
theorem State.issueCommand_frame (s : State) (c : Word) :
    ∃ t, s.issueCommand c = .next t ∧ t.tim = s.tim ∧ t.rccEn = s.rccEn ∧ t.rccRst = s.rccRst ∧
      t.clkRun = s.clkRun ∧ t.usPsc = s.usPsc ∧ t.msPsc = s.msPsc ∧ t.arg = s.arg ∧ t.params = s.params ∧
      t.inputs = s.inputs ∧ t.ownership = s.ownership ∧ t.hostUsed = s.hostUsed ∧ t.cutShort = s.cutShort ∧
      t.busTrace = s.busTrace ∧ t.draws = s.draws := by
  obtain ⟨t, h, hc⟩ := s.issueCommand_next c
  refine ⟨t, h, ?_⟩
  rcases hc with ⟨-, rfl⟩ | ⟨-, -, rfl⟩ | ⟨-, -, _, rfl⟩ | ⟨-, -, -, -, -, rfl⟩ | ⟨-, -, -, -, rfl⟩ |
    ⟨-, -, -, _, _, -, rfl⟩ <;> simp

/-! ## Where a HOST access goes -/

theorem locate_inWindow (pl : Platform) (win : Window) (off : Nat) :
    (Place.inWindow win off).locate pl = some (win, off) := rfl

theorem wrCmd_isCommand (c : Word) : (wrCmd c).isCommand c := ⟨_, rfl, rfl⟩

theorem touchesTimer_of_target {e : Event} {win : Window} {off : Nat} (h : e.target = some (win, off)) :
    e.touchesTimer ↔ win ≠ .controller := by
  unfold Event.touchesTimer
  rw [h]
  cases win <;> simp

theorem isCommand_not_touchesTimer {e : Event} {c : Word} (h : e.isCommand c) : ¬ e.touchesTimer := by
  obtain ⟨place, rfl, hp⟩ := h
  simp [touchesTimer_of_target (e := .hostWrite place .word c) hp]

/-- Everything one event can leave when the machine goes on, under the name of what happens. -/
inductive ActCase (e : Event) (s t : State) : Prop
  /-- HOST has read a register that it may read. -/
  | read (v : Word) (d : Nat) (host : ∃ place size, e = .hostRead place size)
      (free : e.touchesTimer → s.owned = false) (leaves : t = { s with hostData := some v, draws := d })
  /-- HOST has written CMD; `State.issueCommand_next` says what that leaves. -/
  | command (c : Word) (host : e.isCommand c) (issues : s.issueCommand c = .next t)
  /-- HOST has written ARG. -/
  | argument (v : Word) (host : ∃ place, e = .hostWrite place .word v) (other : ¬ e.touchesTimer)
      (leaves : t = { s with arg := v })
  /-- HOST has written a register of a released timer; `State.writeTimerReg_eq` says what that leaves. -/
  | timerWrite (r : TimReg) (v : Word) (host : e.touchesTimer) (free : s.owned = false)
      (answers : s.timerReachable = true) (leaves : t = s.writeTimerReg r v)
  /-- HOST has written a released timer that is gated or in reset. -/
  | ignored (host : e.touchesTimer) (free : s.owned = false) (leaves : t = s)
  /-- HOST has used the RCC bits of a released timer. -/
  | rccWrite (host : e.touchesTimer) (free : s.owned = false) (use : RccUse s t)
  /-- HOST has touched an owned timer. -/
  | race (isRead : Bool) (host : e.touchesTimer) (owned : s.owned = true) (leaves : t = s.ownershipRace isRead)
  /-- SEQ has had its turn; `State.seqTurn_next` says what that leaves. -/
  | seq (event : e = .seq) (turn : s.seqTurn = .next t)
  /-- TIM has had its turn; `State.timTurn_next` says what that leaves. -/
  | tim (event : e = .tim) (turn : s.timTurn = .next t)
  /-- ENV has had its turn. -/
  | env (event : e = .env) (leaves : t = s)
  /-- The platform has set CLK_RUN. -/
  | clkRun (run : Bool) (event : e = .clkRun run) (leaves : t = { s with clkRun := run })
  /-- Engine reset. -/
  | engReset (event : e = .engReset) (leaves : t = s.engineReset)
  /-- System reset. -/
  | sysReset (event : e = .sysReset) (leaves : t = s.systemReset)

theorem hostRead_next {place : Place} {size : AccessSize} {s t : State} (h : s.hostRead place size = .next t) :
    ActCase (.hostRead place size) s t := by
  unfold State.hostRead at h
  cases hl : place.locate Config.platform with
  | none => rw [hl] at h; cases h
  | some target =>
    rw [hl] at h
    obtain ⟨win, off⟩ := target
    have ht := touchesTimer_of_target (e := .hostRead place size) hl
    cases win with
    | controller =>
      obtain ⟨v, hv⟩ := State.readController_next h
      exact .read v s.draws ⟨_, _, rfl⟩ (fun hh => absurd rfl (ht.1 hh)) hv
    | timer =>
      rcases State.readTimer_next h with ⟨ho, e⟩ | ⟨ho, v, d, e⟩
      · exact .race true (ht.2 (by simp)) ho e
      · exact .read v d ⟨_, _, rfl⟩ (fun _ => ho) e
    | rcc b =>
      rcases State.readRcc_next h with ⟨ho, e⟩ | ⟨ho, v, d, e⟩
      · exact .race true (ht.2 (by simp)) ho e
      · exact .read v d ⟨_, _, rfl⟩ (fun _ => ho) e

theorem hostWrite_next {place : Place} {size : AccessSize} {v : Word} {s t : State}
    (h : s.hostWrite place size v = .next t) : ActCase (.hostWrite place size v) s t := by
  unfold State.hostWrite at h
  cases hl : place.locate Config.platform with
  | none => rw [hl] at h; cases h
  | some target =>
    rw [hl] at h
    obtain ⟨win, off⟩ := target
    have ht := touchesTimer_of_target (e := .hostWrite place size v) hl
    cases win with
    | controller =>
      obtain ⟨rfl, ⟨rfl, hi⟩ | ⟨rfl, e⟩⟩ := State.writeController_next h
      · exact .command v ⟨_, rfl, hl⟩ hi
      · exact .argument v ⟨_, rfl⟩ (fun hh => ht.1 hh rfl) e
    | timer =>
      rcases State.writeTimer_next h with ⟨ho, e⟩ | ⟨ho, -, e⟩ | ⟨ho, hr, r, e⟩
      · exact .race false (ht.2 (by simp)) ho e
      · exact .ignored (ht.2 (by simp)) ho e
      · exact .timerWrite r v (ht.2 (by simp)) ho hr e
    | rcc b =>
      rcases State.writeRcc_next h with ⟨ho, e⟩ | ⟨ho, e⟩
      · exact .race false (ht.2 (by simp)) ho e
      · exact .rccWrite (ht.2 (by simp)) ho e

/-- An event that goes on is one of its cases. -/
theorem act_next {e : Event} {s t : State} (h : act e s = .next t) : ActCase e s t := by
  cases e with
  | hostRead place size => exact hostRead_next h
  | hostWrite place size v => exact hostWrite_next h
  | hostBit b v =>
    rcases s.hostRcc_cases b v with ⟨ho, e⟩ | ⟨ho, e⟩ <;> rw [Host.Outcome.next.inj h] at e
    · exact .race false trivial ho e
    · exact .rccWrite trivial ho e
  | seq => exact .seq rfl h
  | tim => exact .tim rfl h
  | env => exact .env rfl (Host.Outcome.next.inj h).symm
  | clkRun run => exact .clkRun run rfl (Host.Outcome.next.inj h).symm
  | engReset => exact .engReset rfl (Host.Outcome.next.inj h).symm
  | sysReset => exact .sysReset rfl (Host.Outcome.next.inj h).symm

/-! ## The step -/

variable (s : State)

theorem State.afterFetch_cons {e : Event} {rest : List Event} (h : s.inputs = e :: rest) :
    s.afterFetch = { s with inputs := rest } := by simp [State.afterFetch, h]

theorem State.nextEvent_cons {e : Event} {rest : List Event} (h : s.inputs = e :: rest) : s.nextEvent = e := by
  simp [State.nextEvent, h]

/-- A step with an event placed is that event, with the event taken off. -/
theorem step_cons {e : Event} {rest : List Event} (h : s.inputs = e :: rest) :
    step s = act e { s with inputs := rest } := by
  rw [step, s.nextEvent_cons h, s.afterFetch_cons h]

/-- Taking the event off changes only the placed events and the count of free ones. -/
theorem State.afterFetch_eq : ∃ is k, s.afterFetch = { s with inputs := is, turn := k } := by
  unfold State.afterFetch
  split
  · exact ⟨_, s.turn, rfl⟩
  · exact ⟨s.inputs, _, rfl⟩

theorem runFor_zero : runFor 0 s = .next s := rfl

theorem runFor_next {s s' : State} (k : Nat) (h : step s = .next s') : runFor (k + 1) s = runFor k s' := by
  simp [runFor, h]

/-- A run in two parts. -/
theorem runFor_add {s s' : State} {j : Nat} (k : Nat) (h : runFor j s = .next s') :
    runFor (j + k) s = runFor k s' := by
  induction j generalizing s with
  | zero => cases h; simp
  | succ j ih =>
    cases hs : step s with
    | next s1 =>
      rw [runFor_next j hs] at h
      rw [show j + 1 + k = (j + k) + 1 by omega, runFor_next (j + k) hs]
      exact ih h
    | fault r => simp [runFor, hs] at h
    | refused r => simp [runFor, hs] at h

/-! ## SEQ's turn by micro-state -/

theorem State.seqTurn_of {i : Instr} (h : decodeMicro s.upc = .ok i) : s.seqTurn = exec i s := by
  simp [State.seqTurn, h]

theorem act_seq : act .seq s = s.seqTurn := rfl

theorem act_tim : act .tim s = s.timTurn := rfl

theorem act_wrCmd (c : Word) : act (wrCmd c) s = s.issueCommand c := rfl

theorem act_wrArg (v : Word) : act (wrArg v) s = .next { s with arg := v } := rfl

/-! ## One step of each placed event a run is made of -/

theorem step_seq {s : State} {rest : List Event} {i : Instr} (h : s.inputs = .seq :: rest)
    (hd : decodeMicro s.upc = .ok i) : step s = exec i { s with inputs := rest } := by
  rw [step_cons s h]
  exact State.seqTurn_of _ hd

theorem step_wrCmd {s : State} {rest : List Event} {c : Word} {i : Instr} (h : s.inputs = wrCmd c :: rest)
    (hd : decodeCommand c s.arg = .ok i) : step s = exec i { s with inputs := rest } := by
  rw [step_cons s h]
  show State.issueCommand c _ = _
  unfold State.issueCommand
  show (match decodeCommand c s.arg with | .ok i => _ | .error _ => _) = _
  rw [hd]

theorem step_wrArg {s : State} {rest : List Event} {v : Word} (h : s.inputs = wrArg v :: rest) :
    step s = .next { s with arg := v, inputs := rest } := by
  rw [step_cons s h]; rfl

theorem step_tim {s : State} {rest : List Event} (h : s.inputs = .tim :: rest) (hc : s.counting = true)
    (hd : s.tim.dir = true) : step s = .next { s with tim := s.tim.cycle s.params, inputs := rest } := by
  rw [step_cons s h]
  show (if s.counting then _ else _) = _
  rw [hc]
  show (if s.tim.dir then _ else _) = _
  rw [hd]
  rfl

theorem step_tim_idle {s : State} {rest : List Event} (h : s.inputs = .tim :: rest) (hc : s.counting = false) :
    step s = .next { s with inputs := rest } := by
  rw [step_cons s h]
  show (if s.counting then _ else _) = _
  rw [hc]
  rfl

/-- A run that takes one more step. -/
theorem runFor_snoc {s s' t : State} {k : Nat} (h : runFor k s = .next s') (ht : step s' = .next t) :
    runFor (k + 1) s = .next t := by
  rw [runFor_add 1 h, runFor_next 0 ht, runFor_zero]

end Sys2Proof.Machine
end

