-- ==== Sys2Proof/Laws/Runs.lean ====
section
/-!
SUPPORT. What one turn of a run does, said once per agent: HOST's `wait.idle`, SEQ's poll, TIM's cycle and ENV's turn.
-/

namespace Sys2Proof.Machine

/-- Bit 0 of STAT is BUSY (R60). -/
theorem State.statWord_busy (s : State) : s.statWord.getLsbD 0 = s.busy := by
  simp only [State.statWord, BitVec.getLsbD_append, BitVec.getLsbD_ofBool]
  simp

/-- Bit 2 of STAT is FAULT (R60). -/
theorem State.statWord_fault (s : State) : s.statWord.getLsbD 2 = s.fault := by
  simp only [State.statWord, BitVec.getLsbD_append, BitVec.getLsbD_ofBool]
  simp

/-- R111: `wait.idle` ends exactly when the STAT word it has read shows BUSY = 0. -/
theorem waitIdleDone_stat (s : State) : waitIdleDone { s with hostData := some s.statWord } = !s.busy := by
  simp only [waitIdleDone, s.statWord_busy]

/-- R111: a host that has read BUSY = 1 goes on waiting. -/
theorem progAfter_wait {s : State} (rest : List HostOp) (hb : s.busy = true) :
    progAfter .waitIdle rest { s with hostData := some s.statWord } = .waitIdle :: rest := by
  unfold progAfter
  rw [waitIdleDone_stat, hb]
  rfl

/-- A turn of a host that waits while BUSY = 1 reads STAT and leaves its program as it is. -/
theorem Run.hostTurn_wait {r : Run} {rest : List HostOp} (hp : r.prog = .waitIdle :: rest) (hb : r.st.busy = true) :
    ∃ d b, r.turn .host = .next { st := { r.st with hostData := d }, prog := r.prog, readDone := b } := by
  refine ⟨some r.st.statWord, readDoneAfter rdStat { r.st with hostData := some r.st.statWord } r.readDone, ?_⟩
  show r.hostTurn = _
  unfold Run.hostTurn
  rw [hp]
  show Host.Outcome.next (Run.mk _ (progAfter .waitIdle rest _) _) = _
  rw [progAfter_wait rest hb]
  rfl

/-- An operation issues a command exactly when its access is a CMD write (R72). -/
theorem HostOp.issues_iff (op : HostOp) : op.issues = true ↔ ∃ c, op.event.isCommand c := by
  cases op with
  | read place size => exact ⟨fun h => (nomatch h), fun ⟨_, _, h, _⟩ => (nomatch h)⟩
  | write place size v =>
    simp only [HostOp.issues, Bool.and_eq_true, decide_eq_true_eq]
    constructor
    · rintro ⟨rfl, hl⟩
      exact ⟨v, place, rfl, hl⟩
    · rintro ⟨_, _, h, hl⟩
      cases h
      exact ⟨rfl, hl⟩
  | bit b v => exact ⟨fun h => (nomatch h), fun ⟨_, _, h, _⟩ => (nomatch h)⟩
  | waitIdle => exact ⟨fun h => (nomatch h), fun ⟨_, _, h, _⟩ => (nomatch h)⟩

/-- R320: the last command is issued exactly when no access the host has still to make is a CMD write. -/
theorem Run.lastIssued_iff (r : Run) : r.lastIssued = true ↔ ∀ op ∈ r.prog, ¬ ∃ c, op.event.isCommand c := by
  simp only [Run.lastIssued, List.all_eq_true, Bool.not_eq_true', ← Bool.not_eq_true, HostOp.issues_iff]

/-- SEQ's turn of a run is its micro-operation (R210). -/
theorem Run.turn_seq {r : Run} {i : Instr} {t : State} (hd : decodeMicro r.st.upc = .ok i)
    (h : exec i r.st = .next t) : r.turn .seq = .next { r with st := t } := by
  show goOn _ r.st.seqTurn = _
  rw [State.seqTurn_of _ hd, h]
  rfl

/-- TIM's turn of a run that counts down is one cycle (R271). -/
theorem Run.turn_tim_counting {r : Run} (hc : r.st.counting = true) (hd : r.st.tim.dir = true) :
    r.turn .tim = .next { r with st := { r.st with tim := r.st.tim.cycle r.st.params } } := by
  show goOn _ r.st.timTurn = _
  unfold State.timTurn
  rw [hc, hd]
  rfl

/-- TIM's turn of a run that does not count changes nothing (R271). -/
theorem Run.turn_tim_stopped {r : Run} (hc : r.st.counting = false) : r.turn .tim = .next r := by
  show goOn _ r.st.timTurn = _
  unfold State.timTurn
  rw [hc]
  rfl

/-- ENV's turn changes nothing the model holds (R275). -/
theorem Run.turn_env (r : Run) : r.turn .env = .next r := rfl

end Sys2Proof.Machine
end

