-- ==== Sys2Proof/Tests/Slice0.lean ====
section
/-!
SUPPORT. Small checks: ill-formed terms, one written-out word per instruction, at most two steps per instruction with values
from spec/95_test_vectors.md, and, for every statement with hypotheses, a state and operands that meet them.
-/

open Sys2Proof Sys2Proof.Machine

namespace Sys2Proof.Tests

/-- The state an outcome goes on to. -/
def result (o : Host.Outcome State Fault Refusal) : Option State :=
  match o with
  | .next s => some s
  | .fault _ => none
  | .refused _ => none

/-- A field of the state an outcome goes on to. -/
def got {A : Type} (o : Host.Outcome State Fault Refusal) (f : State → A) : Option A := (result o).map f

/-- Idle and owned, as V1 leaves the engine: 84 MHz, DIV1 = 0. -/
def owned : State :=
  { State.reset with
    life := true, usPsc := 84#32, msPsc := 84000#32, cop := 0x01#8, rccEn := true,
    tim := { Timer.atReset Params.default with dir := true } }

/-- The same with a delay running in micro-state `u`, in the first of two repetitions of its last chunk. -/
def running (u : Byte) : State :=
  { owned with busy := true, cop := 0x10#8, upc := u, p := 84000#32, dur := 10#16, last := true, reps := 2#17 }

/-! ## Ill-formed terms -/

theorem test_wellFormed_refuses_ms8_256 : (Instr.delayMs8 256#32).wellFormed = false := by decide
theorem test_wellFormed_refuses_ms16_65536 : (Instr.delayMs16 65536#32).wellFormed = false := by decide
theorem test_wellFormed_refuses_us8_256 : (Instr.delayUs8 256#32).wellFormed = false := by decide
theorem test_wellFormed_refuses_us16_65536 : (Instr.delayUs16 65536#32).wellFormed = false := by decide
theorem test_wellFormed_accepts_bounds :
    (Instr.delayMs8 255#32).wellFormed = true ∧ (Instr.delayUs16 65535#32).wellFormed = true ∧
    (Instr.delayMs32 0xFFFFFFFF#32).wellFormed = true := by decide

/-! ## Decoding: words written out from the tables of 30_encoding.md R101, R102 and R109 -/

/-- Bits 31:9 zero, bit 8 DIV1, bits 7:0 0x01. -/
theorem test_decode_init : decodeTableWord 32 0b00000000000000000000000000000001 = some (.init 0#32 false) := by decide
theorem test_decode_init_div1 : decodeTableWord 32 0b00000000000000000000000100000001 = some (.init 0#32 true) := by decide
theorem test_decode_release : decodeTableWord 32 0b00000000000000000000000000000010 = some .release := by decide
/-- OPC[7:4] = 0001, U = 0, OPC[2] = 0, W = 00. -/
theorem test_decode_delayMs8 : decodeTableWord 32 0b00000000000000000000000000010000 = some (.delayMs8 0#32) := by decide
theorem test_decode_delayMs16 : decodeTableWord 32 0b00000000000000000000000000010001 = some (.delayMs16 0#32) := by decide
theorem test_decode_delayMs32 : decodeTableWord 32 0b00000000000000000000000000010010 = some (.delayMs32 0#32) := by decide
theorem test_decode_delayUs8 : decodeTableWord 32 0b00000000000000000000000000011000 = some (.delayUs8 0#32) := by decide
theorem test_decode_delayUs16 : decodeTableWord 32 0b00000000000000000000000000011001 = some (.delayUs16 0#32) := by decide
theorem test_decode_delayUs32 : decodeTableWord 32 0b00000000000000000000000000011010 = some (.delayUs32 0#32) := by decide
theorem test_decode_uopIdle : decodeTableWord 8 0b00000000 = some .uopIdle := by decide
theorem test_decode_uopEnSet : decodeTableWord 8 0b00000001 = some .uopEnSet := by decide
theorem test_decode_uopRstSet : decodeTableWord 8 0b00000010 = some .uopRstSet := by decide
theorem test_decode_uopRstClr : decodeTableWord 8 0b00000011 = some .uopRstClr := by decide
theorem test_decode_uopEnClr : decodeTableWord 8 0b00000100 = some .uopEnClr := by decide
theorem test_decode_uopDirDown : decodeTableWord 8 0b00000101 = some .uopDirDown := by decide
theorem test_decode_uopCalc : decodeTableWord 8 0b00000110 = some .uopCalc := by decide
theorem test_decode_uopChunk : decodeTableWord 8 0b00010000 = some .uopChunk := by decide
theorem test_decode_uopPscWr : decodeTableWord 8 0b00010001 = some .uopPscWr := by decide
theorem test_decode_uopUifClr : decodeTableWord 8 0b00010010 = some .uopUifClr := by decide
theorem test_decode_uopCntWr : decodeTableWord 8 0b00010011 = some .uopCntWr := by decide
theorem test_decode_uopCenSet : decodeTableWord 8 0b00010100 = some .uopCenSet := by decide
theorem test_decode_uopUifPoll : decodeTableWord 8 0b00010101 = some .uopUifPoll := by decide
theorem test_decode_uopCenClr : decodeTableWord 8 0b00010110 = some .uopCenClr := by decide
theorem test_decode_uopFault : decodeTableWord 8 0b00111111 = some .uopFault := by decide

/-- V50, V51, V54, V56, V58, V61, V62. -/
theorem test_decode_operands :
    decodeCommand 0x00000001#32 0x0501BD00#32 = .ok (.init 0x0501BD00#32 false) ∧
    decodeCommand 0x00000101#32 0x007A1200#32 = .ok (.init 0x007A1200#32 true) ∧
    decodeCommand 0x00000010#32 0xFF#32 = .ok (.delayMs8 0xFF#32) ∧
    decodeCommand 0x00000011#32 0xFFFF#32 = .ok (.delayMs16 0xFFFF#32) ∧
    decodeCommand 0x00000012#32 0xFFFFFFFF#32 = .ok (.delayMs32 0xFFFFFFFF#32) ∧
    decodeCommand 0x00000018#32 0#32 = .ok (.delayUs8 0#32) ∧
    decodeCommand 0x0000001A#32 0x000186A0#32 = .ok (.delayUs32 0x000186A0#32) := by decide

/-- V53, V55, V57, V59, V60, V63 to V69. -/
theorem test_decode_illegal :
    decodeCommand 0x00000102#32 0#32 = .error .div1OutsideInit ∧
    decodeCommand 0x00000010#32 0x100#32 = .error .operandTooWide ∧
    decodeCommand 0x00000011#32 0x10000#32 = .error .operandTooWide ∧
    decodeCommand 0x00000013#32 0#32 = .error .unassignedOpcode ∧
    decodeCommand 0x00000014#32 0#32 = .error .unassignedOpcode ∧
    decodeCommand 0x0000001B#32 0#32 = .error .unassignedOpcode ∧
    decodeCommand 0x00000000#32 0#32 = .error .unassignedOpcode ∧
    decodeCommand 0x00000003#32 0#32 = .error .unassignedOpcode ∧
    decodeCommand 0x00000020#32 0#32 = .error .unassignedOpcode ∧
    decodeCommand 0x00000110#32 5#32 = .error .div1OutsideInit ∧
    decodeCommand 0x00000201#32 0x0501BD00#32 = .error .reservedBits ∧
    decodeCommand 0x80000012#32 5#32 = .error .reservedBits := by decide

/-! ## One step per instruction, with values from the vectors -/

/-- V1. -/
theorem test_init_accepted : got (exec (.init 84000000#32 false) State.reset)
    (fun t => (t.life, t.busy, t.upc, t.n, t.statWord)) = some (true, true, 0x01#8, 0x0501BD00#32, 3#32) := by decide
/-- V74: STAT = 0x00000044. -/
theorem test_init_domain : got (exec (.init 0x80000000#32 true) State.reset)
    (fun t => (t.life, t.upc, t.statWord)) = some (false, 0x3F#8, 0x44#32) := by decide
/-- V31: STAT = 0x00000024. -/
theorem test_release_unowned : got (exec .release State.reset)
    (fun t => (t.statWord, t.busTrace)) = some (0x24#32, []) := by decide
theorem test_release_accepted : got (exec .release owned) (fun t => (t.busy, t.upc, t.cop)) =
    some (true, 0x02#8, 0x02#8) := by decide
/-- V70: STAT = 0x00000024. -/
theorem test_delayMs8_unowned : got (exec (.delayMs8 5#32) State.reset) State.statWord = some 0x24#32 := by decide
/-- V72: STAT = 0x00000036. -/
theorem test_delayMs8_too_wide : got (act (wrCmd 0x10#32) { owned with arg := 0x100#32 }) State.statWord =
    some 0x36#32 := by decide
/-- V21's command at V1's prescalers. -/
theorem test_delayMs16_accepted : got (exec (.delayMs16 65535#32) owned) (fun t => (t.cop, t.n, t.p, t.upc)) =
    some (0x11#8, 65535#32, 84000#32, 0x10#8) := by decide
/-- V2. -/
theorem test_delayMs32_accepted : got (exec (.delayMs32 70000#32) owned) (fun t => (t.cop, t.n, t.p, t.upc)) =
    some (0x12#8, 70000#32, 84000#32, 0x10#8) := by decide
/-- V22. -/
theorem test_delayUs8_accepted : got (exec (.delayUs8 255#32) owned) (fun t => (t.cop, t.n, t.p, t.upc)) =
    some (0x18#8, 255#32, 84#32, 0x10#8) := by decide
/-- V23's command at V1's prescalers. -/
theorem test_delayUs16_accepted : got (exec (.delayUs16 1000#32) owned) (fun t => (t.cop, t.n, t.p, t.upc)) =
    some (0x19#8, 1000#32, 84#32, 0x10#8) := by decide
/-- V24. -/
theorem test_delayUs32_accepted : got (exec (.delayUs32 100000#32) owned) (fun t => (t.cop, t.n, t.p, t.upc)) =
    some (0x1A#8, 100000#32, 84#32, 0x10#8) := by decide
/-- V76: busy beats illegal, STAT = 0x00000016. -/
theorem test_illegal_while_busy : got (act (wrCmd 0x13#32) (running 0x12#8)) State.statWord = some 0x16#32 := by decide
/-- V73: illegal beats lifecycle, STAT = 0x00000034. -/
theorem test_illegal_before_lifecycle : got (act (wrCmd 0x13#32) State.reset) State.statWord = some 0x34#32 := by decide
/-- V77: FCODE stays 2 and the write is ignored. -/
theorem test_ignored_while_faulted :
    got (act (wrCmd 0x01#32) (owned.faultedWith 2#4)) (fun t => (t.fcode, t.upc)) = some (2#4, 0x3F#8) := by decide

theorem test_uopIdle : exec .uopIdle owned = .next owned := rfl
theorem test_uopFault : exec .uopFault (owned.faultedWith 3#4) = .next (owned.faultedWith 3#4) := rfl
theorem test_uopEnSet : got (exec .uopEnSet State.reset) (fun t => (t.rccEn, t.upc)) = some (true, 0x02#8) := by decide
theorem test_uopRstSet : got (exec .uopRstSet owned) (fun t => (t.rccRst, t.tim.dir, t.tim.arr, t.upc)) =
    some (true, false, 0xFFFF#16, 0x03#8) := by decide
theorem test_uopRstClr_init : got (exec .uopRstClr { owned with rccRst := true }) (fun t => (t.rccRst, t.upc)) =
    some (false, 0x05#8) := by decide
theorem test_uopRstClr_release : got (exec .uopRstClr { owned with rccRst := true, cop := 0x02#8 }) (fun t => t.upc) =
    some 0x04#8 := by decide
/-- V30: STAT = 0 and the prescalers kept. -/
theorem test_uopEnClr : got (exec .uopEnClr { owned with busy := true })
    (fun t => (t.rccEn, t.statWord, t.usPsc, t.msPsc)) = some (false, 0#32, 84#32, 84000#32) := by decide
/-- The word of 20_memory.md R78 with DIR_BIT = 4. -/
theorem test_uopDirDown : got (exec .uopDirDown { owned with tim := Timer.atReset Params.default })
    (fun t => (t.tim.dir, t.tim.cen, t.busTrace)) = some (true, false, [.memWrite .cr1 0x10#32]) := by decide
/-- V3. -/
theorem test_uopCalc_rounds_up : got (exec .uopCalc { owned with n := 48000001#32 }) (fun t => (t.usPsc, t.msPsc)) =
    some (49#32, 48001#32) := by decide
/-- V10k: the largest domain with DIV1 = 1. -/
theorem test_uopCalc_largest : got (exec .uopCalc { owned with n := 2147483647#32, cdiv1 := true })
    (fun t => (t.usPsc, t.msPsc)) = some (4295#32, 4294968#32) := by decide
/-- V2: the first chunk of 70000, then the last. -/
theorem test_uopChunk_full : got (exec .uopChunk { owned with n := 70000#32 }) (fun t => (t.dur, t.n, t.last)) =
    some (65535#16, 4465#32, false) := by decide
/-- V42: 65535 is one chunk. -/
theorem test_uopChunk_last : got (exec .uopChunk { owned with n := 65535#32 }) (fun t => (t.dur, t.n, t.last)) =
    some (65535#16, 0#32, true) := by decide
/-- V11. -/
theorem test_uopPscWr_split : got (exec .uopPscWr { owned with p := 84000#32 })
    (fun t => (t.reps, t.preg, t.rep, t.tim.pscSh)) = some (2#17, 0x4820#16, 0#17, 0x4820#16) := by decide
/-- V13. -/
theorem test_uopPscWr_largest : got (exec .uopPscWr { owned with p := 4294968#32 }) (fun t => (t.reps, t.tim.psc)) =
    some (66#17, 0x8938#16) := by decide
theorem test_uopUifClr : got (exec .uopUifClr { owned with tim := { owned.tim with uif := true } })
    (fun t => (t.tim.uif, t.busTrace)) = some (false, [.memWrite .sr 0xFFFFFFFE#32]) := by decide
theorem test_uopCntWr : got (exec .uopCntWr (running 0x13#8)) (fun t => (t.tim.cnt, t.busTrace)) =
    some (10#16, [.memWrite .cnt 10#32]) := by decide
/-- CEN_BIT = 0 and DIR_BIT = 4. -/
theorem test_uopCenSet : got (exec .uopCenSet (running 0x14#8)) (fun t => (t.tim.cen, t.tim.dir, t.upc, t.busTrace)) =
    some (true, true, 0x15#8, [.memWrite .cr1 0x11#32]) := by decide
theorem test_uopUifPoll_stays : got (exec .uopUifPoll (running 0x15#8)) (fun t => (t.upc, t.busTrace)) =
    some (0x15#8, [.memRead .sr]) := by decide
theorem test_uopUifPoll_leaves :
    got (exec .uopUifPoll { running 0x15#8 with tim := { owned.tim with uif := true } }) (fun t => t.upc) =
    some 0x16#8 := by decide
theorem test_uopCenClr_next_repetition : got (exec .uopCenClr (running 0x16#8)) (fun t => (t.rep, t.upc, t.busy)) =
    some (1#17, 0x12#8, true) := by decide
theorem test_uopCenClr_end : got (exec .uopCenClr { running 0x16#8 with rep := 1#17 })
    (fun t => (t.rep, t.upc, t.statWord)) = some (2#17, 0x00#8, 2#32) := by decide

/-! ## The timer and the host -/

/-- P2: a countdown of 0 updates at its first tick (rule R270). -/
theorem test_tick_from_zero : (Timer.tick Params.default owned.tim).uif = true ∧
    (Timer.tick Params.default owned.tim).cnt = 0xFFFF#16 := by decide
/-- V81: BUSY and LIFE, STAT = 0x00000003. -/
theorem test_read_stat : got (act rdStat (running 0x15#8)) (fun t => (t.hostData, waitIdleDone t)) =
    some (some 3#32, false) := by decide
/-- V80: recorded, STAT unchanged. -/
theorem test_ownership_recorded : got (act (.hostWrite (.inWindow .timer 0x24) .word 5#32) owned)
    (fun t => (t.ownership, t.statWord)) = some (true, 2#32) := by decide
/-- R306: reading the register of an RCC bit of an owned timer is recorded too. -/
theorem test_rcc_read_recorded : got (act (.hostRead (.inWindow (.rcc .en) 0) .word) owned)
    (fun t => (t.ownership, t.hostUsed)) = some (true, false) := by decide
/-- R93: a gated timer reads 0 and ignores a write at an offset that is none of the five registers. -/
theorem test_gated_timer : got (act (.hostRead (.inWindow .timer 0x0C) .word) State.reset) (fun t => t.hostData) =
    some (some 0#32) ∧
    got (act (.hostWrite (.inWindow .timer 0x0C) .word 1#32) State.reset) (fun t => (t.tim.cen, t.hostUsed)) =
    some (false, false) := by decide
/-- R85: one platform that meets it, and three that do not: windows that overlap, one bit for both, a base off a word. -/
theorem test_platform_wf : Platform.somePlatform.wf = true ∧
    ({ Platform.somePlatform with ctrlBase := 0x00001FE4#32 } : Platform).wf = false ∧
    ({ Platform.somePlatform with rccRstAddr := 0x00002000#32 } : Platform).wf = false ∧
    ({ Platform.somePlatform with rccRstAddr := 0x00002000#32, rccRstBit := 1 } : Platform).wf = true ∧
    ({ Platform.somePlatform with timBase := 0x00001002#32 } : Platform).wf = false := by decide
/-- R70, R71: the last byte of the controller window, the byte after it, and a byte of the timer window. -/
theorem test_locate : Platform.somePlatform.locate 0x1F#32 = some (.controller, 0x1F) ∧
    Platform.somePlatform.locate 0x20#32 = none ∧
    Platform.somePlatform.locate 0x1024#32 = some (.timer, 0x24) ∧
    Platform.somePlatform.locate 0x2004#32 = some (.rcc .rst, 0) := by decide
/-- R111: the third turn of an idle host's `wait.idle`, which reads BUSY = 0, ends its program. -/
theorem test_wait_idle_ends :
    (match Run.turn .host { st := owned, prog := [.waitIdle], readDone := false } with
      | .next r => r.finished
      | _ => false) = true := by
  show (!false && true && true && true) = true
  rfl
/-- R320: with BUSY = 0 and FAULT = 0 read, a run with a read of USPSC left is finished and settled, and one with a command
left is neither. -/
theorem test_finished_before_last_read :
    (Run.mk owned [.read (.inWindow .controller usPscOff) .word] true).finished = true ∧
    (Run.mk owned [.read (.inWindow .controller usPscOff) .word] true).settled = true ∧
    (Run.mk owned (lineOps .release) true).finished = false ∧
    (Run.mk owned (lineOps .release) true).settled = false := ⟨rfl, rfl, rfl, rfl⟩
/-- R138 with TIMCLK_DOUBLE_WHEN_DIV1 = false, at V1's clock and V10's: 168 MHz with DIV1 = 0 and 84 MHz with DIV1 = 1. -/
theorem test_clock_not_doubled_with_div1 :
    fEff { Params.default with timclkDoubleWhenDiv1 := false } 84000000#32 false = 168000000 ∧
    fEff { Params.default with timclkDoubleWhenDiv1 := false } 84000000#32 true = 84000000 ∧
    fEff Params.default 84000000#32 false = 84000000 ∧ fEff Params.default 84000000#32 true = 168000000 := by decide
/-- R301: a system reset ends both records of the log's entry 25, and an engine reset begins the one of a cut command. -/
theorem test_reset_records :
    got (act .sysReset { running 0x15#8 with hostUsed := true, cutShort := true }) (fun t => (t.hostUsed, t.cutShort)) =
      some (false, false) ∧
    got (act .engReset { running 0x15#8 with hostUsed := true }) (fun t => (t.hostUsed, t.cutShort)) = some (true, true) ∧
    got (act .engReset owned) (fun t => (t.hostUsed, t.cutShort)) = some (false, false) := by decide
/-- V79: the timer and the RCC bits stay. -/
theorem test_engine_reset_after_fault : got (act .engReset (owned.faultedWith 2#4))
    (fun t => (t.statWord, t.tim.dir, t.rccEn)) = some (0#32, true, true) := by decide
/-- The table words of both formats run as the next step. -/
theorem test_withFetchWord_runs : got (step (State.reset.withFetchWord 8 0x01)) (fun t => t.rccEn) = some true ∧
    got (step (State.reset.withFetchWord 32 0x101)) (fun t => (t.life, t.cdiv1)) = some (true, true) := by decide

/-! ## States and operands that meet the hypotheses of the statements -/

theorem witness_DecodeOfEncodeIsIdentity : (Instr.delayMs8 255#32).wellFormed = true ∧
    (Instr.delayUs16 65535#32).wellFormed = true := by decide
theorem witness_EncodeOfDecodeIsIdentity :
    decode (.command 0x00000011#32 0xFFFF#32) = .ok (.delayMs16 0xFFFF#32) ∧
    decode (.command 0x00000002#32 7#32) = .ok .release ∧ decode (.micro 0x3F#8) = .ok .uopFault := by decide
theorem witness_DecoderRefusesExactlyIllegalWords :
    illegalWord 0x200#32 0#32 ∧ illegalWord 0x13#32 0#32 ∧ illegalWord 0x102#32 0#32 ∧ illegalWord 0x18#32 256#32 ∧
    illegalWord 0x19#32 65536#32 ∧ ¬ illegalWord 0x101#32 0#32 ∧ ¬ illegalWord 0x19#32 65535#32 := by
  unfold illegalWord
  exact ⟨by decide, by decide, by decide, by decide, by decide, by decide, by decide⟩
theorem witness_StepRunsDecodedCommand :
    ({ State.reset with inputs := [wrCmd 0x10#32], arg := 255#32 } : State).inputs = wrCmd 0x10#32 :: [] ∧
    decodeCommand 0x10#32 ({ State.reset with inputs := [wrCmd 0x10#32], arg := 255#32 } : State).arg =
      .ok (.delayMs8 255#32) := by decide
theorem witness_StepRunsDecodedMicroOp :
    ({ running 0x16#8 with inputs := [.seq, .tim] } : State).inputs = .seq :: [.tim] ∧
    decodeMicro ({ running 0x16#8 with inputs := [.seq, .tim] } : State).upc = .ok .uopCenClr := by decide
theorem witness_LifecycleCommandsAccepted :
    (State.reset.fault = false ∧ State.reset.busy = false ∧ State.reset.life = false ∧
      fEff State.reset.params 0xFFFFFFFF#32 false < 2 ^ 32 ∧ fEff State.reset.params 0x7FFFFFFF#32 true < 2 ^ 32) ∧
    (owned.fault = false ∧ owned.busy = false ∧ owned.life = true) := by decide
theorem witness_DelayAccepted : owned.fault = false ∧ owned.busy = false ∧ owned.life = true ∧
    OperandWidth.admits .w8 255#32 = true ∧ OperandWidth.admits .w16 65535#32 = true ∧
    OperandWidth.admits .w32 0xFFFFFFFF#32 = true := by decide
theorem witness_CommandTurnedAway : isCommand .release = true ∧ isCommand (.delayUs8 0#32) = true ∧
    (owned.faultedWith 2#4).fault = true ∧ (running 0x15#8).fault = false ∧ (running 0x15#8).busy = true := by decide
theorem witness_LifecycleMismatchFaults :
    (owned.fault = false ∧ owned.busy = false ∧ owned.life = true) ∧
    (State.reset.fault = false ∧ State.reset.busy = false ∧ State.reset.life = false ∧
      OperandWidth.admits .w16 65535#32 = true) := by decide
theorem witness_OutOfDomainInitFaults : State.reset.fault = false ∧ State.reset.busy = false ∧
    State.reset.life = false ∧ 2 ^ 32 ≤ fEff State.reset.params 0x80000000#32 true := by decide
theorem witness_IllegalCommandFaults : owned.fault = false ∧ owned.busy = false ∧ illegalWord 0x200#32 owned.arg ∧
    OperandWidth.admits .w8 256#32 = false ∧ OperandWidth.admits .w16 65536#32 = false := by
  unfold illegalWord; decide
theorem witness_CommandWriteReportsFirstFault :
    (owned.faultedWith 1#4).fault = true ∧ ((running 0x10#8).fault = false ∧ (running 0x10#8).busy = true) ∧
    (owned.fault = false ∧ owned.busy = false ∧ illegalWord 0x13#32 owned.arg) ∧
    (¬ illegalWord 0x01#32 owned.arg ∧ lifecycleMismatch 0x01#32 owned) ∧
    (¬ illegalWord 0x101#32 0x80000000#32 ∧ ¬ lifecycleMismatch 0x101#32 { State.reset with arg := 0x80000000#32 } ∧
      outOfDomain 0x101#32 { State.reset with arg := 0x80000000#32 }) ∧
    (¬ illegalWord 0x10#32 owned.arg ∧ ¬ lifecycleMismatch 0x10#32 owned ∧ ¬ outOfDomain 0x10#32 owned) := by
  unfold illegalWord lifecycleMismatch outOfDomain
  exact ⟨by decide, by decide, by decide, by decide, by decide, by decide⟩
theorem witness_OnlyCommandWritesFault : act (wrCmd 0x13#32) owned = .next (owned.faultedWith 3#4) ∧
    owned.fault = false ∧ (owned.faultedWith 3#4).fault = true := ⟨rfl, rfl, rfl⟩
theorem witness_FaultClearsOnlyAtReset :
    act (wrArg 1000#32) (owned.faultedWith 2#4) = .next { owned.faultedWith 2#4 with arg := 1000#32 } ∧
    (owned.faultedWith 2#4).fault = true ∧ wrArg 1000#32 ≠ .engReset ∧ wrArg 1000#32 ≠ .sysReset :=
  ⟨rfl, rfl, by decide, by decide⟩
theorem witness_RstClrEffect : owned.cop = 0x01#8 ∧ ({ owned with cop := 0x02#8 } : State).cop = 0x02#8 := by decide
/-! A timer that answers, one gated, one in reset: the cases of the micro-operations that access the timer. -/
theorem witness_TimerWriteMicroOpEffects : (owned.rccEn = true ∧ owned.rccRst = false) ∧
    (State.reset.rccEn = false ∨ State.reset.rccRst = true) ∧ ({ owned with rccRst := true } : State).rccRst = true := by decide
theorem witness_PscWrEffect : (owned.rccEn = true ∧ owned.rccRst = false) ∧
    (State.reset.rccEn = false ∨ State.reset.rccRst = true) ∧ ({ owned with rccRst := true } : State).rccRst = true := by decide
theorem witness_CenSetEffect : (owned.rccEn = true ∧ owned.rccRst = false) ∧
    (State.reset.rccEn = false ∨ State.reset.rccRst = true) ∧ ({ owned with rccRst := true } : State).rccRst = true := by decide
theorem witness_UifPollEffect : (owned.rccEn = true ∧ owned.rccRst = false ∧
      ({ owned with tim := { owned.tim with uif := true } } : State).tim.uif = true) ∧ State.reset.rccEn = false ∧
    ({ owned with rccRst := true } : State).rccRst = true ∧ owned.tim.uif = false := by decide
theorem witness_ChunkEffect : 0xFFFF < ({ owned with n := 65536#32 } : State).n.toNat ∧
    ({ owned with n := 65535#32 } : State).n.toNat ≤ 0xFFFF := by decide
theorem witness_CenClrEffect :
    ((running 0x16#8).rep.toNat < (running 0x16#8).reps.toNat ∧
      (running 0x16#8).rep.toNat + 1 < (running 0x16#8).reps.toNat) ∧
    (({ running 0x16#8 with rep := 1#17 } : State).rep.toNat < (running 0x16#8).reps.toNat ∧
      ({ running 0x16#8 with rep := 1#17 } : State).rep.toNat + 1 = (running 0x16#8).reps.toNat ∧
      (running 0x16#8).last = true ∧ ({ running 0x16#8 with last := false } : State).last = false) := by decide
theorem witness_UnstatedSuccessorsAreFree : (State.reset.cop ≠ 0x01#8 ∧ State.reset.cop ≠ 0x02#8) ∧
    (({ running 0x16#8 with rep := 2#17 } : State).reps.toNat ≤ ({ running 0x16#8 with rep := 2#17 } : State).rep.toNat ∧
      (2#17 : Count) ≠ 0x1FFFF#17) ∧
    ({ running 0x16#8 with rep := 0x1FFFF#17 } : State).reps.toNat ≤
      ({ running 0x16#8 with rep := 0x1FFFF#17 } : State).rep.toNat := by decide
theorem witness_PrescalersRoundUp :
    exec .uopCalc { owned with n := 84000000#32 } =
      .next { owned with n := 84000000#32, usPsc := 84#32, msPsc := 84000#32 } ∧
    0 < fEff owned.params 84000000#32 owned.cdiv1 ∧ fEff owned.params 84000000#32 owned.cdiv1 % 1000000 = 0 :=
  ⟨rfl, by decide, by decide⟩
theorem witness_MillisecondSplitThreshold : 65535000 < 2 ^ 32 ∧ 65535001 < 2 ^ 32 ∧ 4294967295 < 2 ^ 32 := by decide
theorem witness_SplitPathRunsShort : Params.default.pscPlusOne = false ∧ 65536 ≤ (65536#32).toNat := by decide
theorem witness_ChunksDecomposeDelay : chunkCount State.reset.n.toNat ≤ 1 ∧
    chunkCount ({ owned with n := 70000#32 } : State).n.toNat ≤ 2 ∧
    0 < ({ owned with n := 70000#32 } : State).n.toNat := by decide
theorem witness_DivisorAndCounterTick :
    Params.default.pscPlusOne = false ∧ ({ Params.default with pscPlusOne := true } : Params).pscPlusOne = true ∧
    Params.default.updateOnZero = true ∧ ({ owned.tim with cnt := 1#16 } : Timer).cnt.toNat = 1 ∧
    owned.tim.cnt.toNat = 0 ∧ 2 ≤ ({ owned.tim with cnt := 2#16 } : Timer).cnt.toNat ∧
    ({ Params.default with updateOnZero := false } : Params).updateOnZero = false := by decide
/-- Counting at the two sides of the divisor 84, stopped, and counting up. -/
def counting : State := { running 0x15#8 with tim := { owned.tim with cen := true, cnt := 10#16, pscSh := 84#16 } }
theorem witness_TimerTurn :
    owned.tim.cen = false ∧
    (counting.clkRun = true ∧ counting.rccEn = true ∧ counting.rccRst = false ∧ counting.tim.cen = true ∧
      counting.tim.dir = true ∧ counting.tim.pcnt.toNat + 1 < divisor counting.params counting.tim.pscSh) ∧
    (82 + 1 < divisor counting.params counting.tim.pscSh ∧ divisor counting.params counting.tim.pscSh ≤ 83 + 1) ∧
    ({ counting with tim := { counting.tim with dir := false } } : State).tim.dir = false := by decide
theorem witness_ExpiryTickCount : owned.tim.uif = false ∧ Params.default.updateOnZero = true ∧ owned.tim.cnt.toNat = 0 ∧
    1 ≤ counting.tim.cnt.toNat ∧ ({ Params.default with updateOnZero := false } : Params).updateOnZero = false := by decide
theorem witness_CountdownCycleCount : counting.clkRun = true ∧ counting.rccEn = true ∧ counting.rccRst = false ∧
    counting.tim.cen = true ∧ counting.tim.dir = true ∧ counting.tim.uif = false ∧
    counting.tim.pcnt.toNat < divisor counting.params counting.tim.pscSh ∧
    ({ counting with inputs := [.tim, .tim, .seq] } : State).inputs = List.replicate 2 .tim ++ [.seq] := by decide
theorem witness_InitRunsToCompletion : State.reset.fault = false ∧ State.reset.busy = false ∧ State.reset.life = false ∧
    fEff State.reset.params 0xFFFFFFFF#32 false < 2 ^ 32 ∧
    ({ State.reset with inputs := hostLine (.init 0xFFFFFFFF#32 false) ++ List.replicate 5 .seq ++ [] } : State).inputs =
      hostLine (.init 0xFFFFFFFF#32 false) ++ List.replicate 5 .seq ++ [] := by decide
theorem witness_ReleaseRunsToCompletion : owned.fault = false ∧ owned.busy = false ∧ owned.life = true ∧
    ({ owned with inputs := hostLine .release ++ List.replicate 3 .seq ++ [] } : State).inputs =
      hostLine .release ++ List.replicate 3 .seq ++ [] := by decide
/-- A delay with its turns placed, on a timer idle and owned. -/
def delaying (s : State) (u : DelayUnit) (w : OperandWidth) (n : Word) (kss : List (List Nat)) : State :=
  { s with inputs := hostLine (delayInstr u w n) ++ delayTurns kss ++ [] }
theorem witness_DelayRunsToCompletion :
    (delaying owned .us .w8 1#32 [[84]]).fault = false ∧ (delaying owned .us .w8 1#32 [[84]]).busy = false ∧
    (delaying owned .us .w8 1#32 [[84]]).life = true ∧ (delaying owned .us .w8 1#32 [[84]]).clkRun = true ∧
    (delaying owned .us .w8 1#32 [[84]]).rccEn = true ∧ (delaying owned .us .w8 1#32 [[84]]).rccRst = false ∧
    OperandWidth.admits .w8 1#32 = true ∧
    List.Forall₂ (fun dur ks => ks.length = ((delaying owned .us .w8 1#32 [[84]]).prescalerOf .us).toNat / 65536 + 1 ∧
      ∀ k ∈ ks, enoughCycles owned.params dur (BitVec.ofNat 16 (((delaying owned .us .w8 1#32 [[84]]).prescalerOf
        .us).toNat % 65536)) k ∧ (owned.params.pscPreload = true → enoughCycles owned.params dur owned.tim.pscSh k))
      (chunkDurations (1#32).toNat) [[84]] ∧
    (delaying owned .us .w8 1#32 [[84]]).inputs = hostLine (delayInstr .us .w8 1#32) ++ delayTurns [[84]] ++ [] :=
  ⟨rfl, rfl, rfl, rfl, rfl, rfl, rfl,
    .cons ⟨rfl, by simp only [List.forall_mem_singleton]; exact ⟨by unfold enoughCycles; decide, fun h => nomatch h⟩⟩ .nil,
    rfl⟩
/-- With preload, and a prescaler that splits in two repetitions at PREG = 1. -/
def preloaded : State := { owned with params := { Params.default with pscPreload := true }, msPsc := 65537#32 }
/-- The same conditions for two chunks of two repetitions with preload, each countdown at its bound. -/
theorem witness_DelayRunsToCompletion_chunks :
    (delaying preloaded .ms .w32 65536#32 [[65535, 65535], [1, 1]]).fault = false ∧
    (delaying preloaded .ms .w32 65536#32 [[65535, 65535], [1, 1]]).params.pscPreload = true ∧
    OperandWidth.admits .w32 65536#32 = true ∧
    List.Forall₂ (fun dur ks => ks.length = (preloaded.prescalerOf .ms).toNat / 65536 + 1 ∧
      ∀ k ∈ ks, enoughCycles preloaded.params dur (BitVec.ofNat 16 ((preloaded.prescalerOf .ms).toNat % 65536)) k ∧
        (preloaded.params.pscPreload = true → enoughCycles preloaded.params dur preloaded.tim.pscSh k))
      (chunkDurations (65536#32).toNat) [[65535, 65535], [1, 1]] :=
  ⟨rfl, rfl, rfl,
    .cons ⟨rfl, by unfold enoughCycles; decide⟩ (.cons ⟨rfl, by unfold enoughCycles; decide⟩ .nil)⟩
/-- Turns of all agents in no particular order: polls before, between and after the cycles. -/
def mixedTurns : List Event :=
  [.tim, .seq, .seq, .env, .seq, .seq, .tim, .seq, .seq, .tim, .tim, rdStat, .seq, .tim, .env, .seq]
/-- A two-tick microsecond delay with turns placed after its host line. -/
def longDelay (es : List Event) : State :=
  { owned with inputs := hostLine (delayInstr .us .w8 2#32) ++ es ++ [] }
theorem witness_SingleChunkDelayNeverEndsEarly :
    (longDelay mixedTurns).fault = false ∧ (longDelay mixedTurns).busy = false ∧ (longDelay mixedTurns).life = true ∧
    (longDelay mixedTurns).clkRun = true ∧ (longDelay mixedTurns).rccEn = true ∧
    (longDelay mixedTurns).rccRst = false ∧ (longDelay mixedTurns).params.pscPreload = false ∧
    OperandWidth.admits .w8 2#32 = true ∧ (2#32).toNat ≤ 65535 ∧
    ((longDelay mixedTurns).prescalerOf .us).toNat ≤ 65535 ∧ (longDelay mixedTurns).tim.cen = false ∧
    (∀ e ∈ mixedTurns, e = .seq ∨ e = .tim ∨ e = .env ∨ e = rdStat) ∧
    mixedTurns.count .tim ≤ (expiryTicks owned.params ((2#32).extractLsb' 0 16) - 1) *
      divisor owned.params (((longDelay mixedTurns).prescalerOf .us).extractLsb' 0 16) ∧
    (longDelay mixedTurns).inputs = hostLine (delayInstr .us .w8 2#32) ++ mixedTurns ++ [] :=
  ⟨rfl, rfl, rfl, rfl, rfl, rfl, rfl, rfl, by decide, by decide, rfl, by decide, by decide, rfl⟩
/-- The bound of that statement above 0: a delay of two ticks has 84 cycles in which it cannot end. -/
theorem witness_SingleChunkDelayNeverEndsEarly_bound :
    84 ≤ (expiryTicks owned.params ((2#32).extractLsb' 0 16) - 1) *
      divisor owned.params ((owned.prescalerOf .us).extractLsb' 0 16) := by decide
/-- A host that waits for a running delay, in a run. -/
def waiting (s : State) : Run := { st := s, prog := [.waitIdle], readDone := false }
theorem witness_PollHangsWithoutClock :
    ((∀ e ∈ [Event.seq, .tim, .env], e = .seq ∨ e = .tim ∨ e = .env) ∧
      ({ running 0x15#8 with inputs := [.seq, .tim, .env], clkRun := false } : State).inputs = [.seq, .tim, .env] ++ [] ∧
      (running 0x15#8).upc = 0x15#8 ∧ (running 0x15#8).tim.uif = false ∧
      ({ running 0x15#8 with inputs := [.seq, .tim, .env], clkRun := false } : State).clkRun = false) ∧
    (waiting { running 0x15#8 with clkRun := false }).prog = .waitIdle :: [] ∧
    (waiting { running 0x15#8 with clkRun := false }).st.busy = true ∧
    (waiting { running 0x15#8 with clkRun := false }).st.fault = false := by decide
/-- A countdown one tick of one cycle before its end, in the last repetition. -/
def ending : State :=
  { running 0x15#8 with
    rep := 1#17, tim := { owned.tim with cen := true, cnt := 1#16, pscSh := 1#16, psc := 1#16 } }
/-- The same after its cycle. -/
def expired : State := { ending with tim := { ending.tim with cnt := 0#16, uif := true } }
/-- The two, then the states after the poll that sees the flag and after CEN_CLR. -/
def ended : Nat → State
  | 0 => ending
  | 1 => expired
  | 2 => { expired with upc := 0x16#8, busTrace := [.memRead .sr] }
  | _ => { expired with
      upc := 0x00#8, busy := false, rep := 2#17, tim := { expired.tim with cen := false },
      busTrace := [.memWrite .cr1 0x10#32, .memRead .sr] }
/-- The turns that lead there, then ENV's for ever. -/
def endingTurns : Nat → Turn
  | 0 => .tim
  | 1 => .seq
  | 2 => .seq
  | _ => .env
/-- The execution of the statement exists: it is fair, since SEQ and TIM have no step left at its end. -/
theorem witness_FairRunLeavesPoll :
    Execution (waiting ending) endingTurns (fun k => waiting (ended k)) ∧
    Fair endingTurns (fun k => waiting (ended k)) ∧ (∀ k, endingTurns k ∈ [.host, .seq, .tim, .env]) ∧
    (waiting ending).prog = .waitIdle :: [] ∧ ending.busy = true ∧ ending.upc = 0x15#8 ∧ ending.clkRun = true ∧
    ending.rccEn = true ∧ ending.rccRst = false ∧ ending.tim.cen = true ∧ ending.tim.dir = true := by
  refine ⟨⟨rfl, fun k => ?_⟩, ⟨fun k h => ?_, fun k h => ?_⟩, fun k => ?_, rfl, rfl, rfl, rfl, rfl, rfl, rfl, rfl⟩
  · match k with
    | 0 => rfl
    | 1 => rfl
    | 2 => rfl
    | _ + 3 => rfl
  · exact absurd (h (k + 3) (by omega)) (show ¬ (ended 3).seqEnabled = true by decide)
  · exact absurd (h (k + 3) (by omega)) (show ¬ (ended 3).counting = true by decide)
  · match k with
    | 0 => simp [endingTurns]
    | 1 => simp [endingTurns]
    | 2 => simp [endingTurns]
    | _ + 3 => simp [endingTurns]

/-- A running delay meets the sequencer invariant, so the statements over it are about more than the reset state. -/
theorem running_controlInv : ControlInv (running 0x16#8) := by constructor <;> decide
theorem running_ownedInv : OwnedInv (running 0x16#8) := by constructor <;> decide
theorem running_stoppedInv : ReleasedInv (running 0x16#8) ∧ StoppedInv (running 0x16#8) :=
  ⟨by unfold ReleasedInv; decide, by constructor <;> decide⟩
theorem running_sequencerInv (es : List Event) : SequencerInv { running 0x16#8 with inputs := es } :=
  ⟨{ running_controlInv with }, fun _ => { running_ownedInv with },
    fun _ _ => ⟨running_stoppedInv.1, fun _ => { running_stoppedInv.2 with }⟩⟩
theorem witness_StepKeepsSequencerInv :
    SequencerInv { running 0x16#8 with inputs := [.tim] } ∧
    step { running 0x16#8 with inputs := [.tim] } = .next (running 0x16#8) := ⟨running_sequencerInv _, rfl⟩
/-- The premises of R229 (d) and (e) are met by a running delay whose counter is enabled. -/
theorem witness_StepKeepsSequencerInv_counting :
    SequencerInv ending ∧ ending.ownership = false ∧ ending.cutShort = false ∧ ending.hostUsed = false ∧
    ending.tim.cen = true :=
  ⟨⟨by constructor <;> decide, fun _ => by constructor <;> decide,
    fun _ _ => ⟨by unfold ReleasedInv; decide, fun _ => by constructor <;> decide⟩⟩, by decide, by decide, by decide,
    by decide⟩
theorem witness_StepKeepsTimerInv : TimerInv { running 0x16#8 with inputs := [.tim] } ∧
    step { running 0x16#8 with inputs := [.tim] } = .next (running 0x16#8) :=
  ⟨⟨by decide, by decide⟩, rfl⟩
theorem witness_StepKeepsPrescalerInv : SequencerInv { running 0x16#8 with inputs := [.tim] } ∧
    PrescalerInv { running 0x16#8 with inputs := [.tim] } ∧
    step { running 0x16#8 with inputs := [.tim] } = .next (running 0x16#8) :=
  ⟨witness_StepKeepsSequencerInv.1,
    ⟨by decide, by decide, by unfold State.initRunning; decide, by decide, by decide⟩, rfl⟩
theorem witness_NoFaultStopUnderInv : SequencerInv { running 0x16#8 with inputs := [.tim] } ∧
    ({ State.reset with upc := 0x07#8 } : State).upc ∉ microStates := ⟨witness_StepKeepsSequencerInv.1, by decide⟩
theorem witness_LifeChangesOnlyAtInitAndRelease :
    (act (wrCmd 0x01#32) State.reset =
      .next { State.reset with life := true, busy := true, cop := 0x01#8, upc := 0x01#8 } ∧ State.reset.life = false) ∧
    (act .seq { owned with upc := 0x04#8, busy := true } =
      .next { owned with rccEn := false, life := false, upc := 0x00#8, busTrace := [.atomicClear .en] } ∧
      owned.life = true) := ⟨⟨rfl, rfl⟩, ⟨rfl, rfl⟩⟩
theorem witness_OnlyCalcWritesPrescalers :
    act .seq { owned with upc := 0x06#8, n := 8000000#32 } =
      .next { owned with upc := 0x00#8, n := 8000000#32, usPsc := 8#32, msPsc := 8000#32 } ∧
    (8#32 : Word) ≠ owned.usPsc := ⟨rfl, by decide⟩
theorem witness_ArgDoesNotReachSequencer : (running 0x10#8).upc ∈ microStates := by decide
theorem witness_EnvironmentInputsAreNotWritten : act .seq owned = .next owned ∧ ∀ b, Event.seq ≠ .clkRun b :=
  ⟨rfl, fun _ h => by cases h⟩
theorem witness_OwnershipRecorded :
    ((.hostRead (.inWindow (.rcc .rst) 0) .word : Event).target = some (.rcc .rst, 0) ∧
      (.hostWrite (.inWindow .timer 0x24) .word 0#32 : Event).target = some (.timer, 0x24)) ∧
    (act (.hostBit .en false) owned = .next (owned.ownershipRace false) ∧ owned.ownership = false ∧
      (owned.ownershipRace false).ownership = true) ∧
    (act .env (owned.ownershipRace false) = .next (owned.ownershipRace false)) := ⟨⟨rfl, rfl⟩, ⟨rfl, rfl, rfl⟩, rfl⟩
theorem witness_DelayEndsOnlyAfterLastRepetition : SequencerInv { running 0x16#8 with rep := 1#17 } ∧
    got (act .seq { running 0x16#8 with rep := 1#17 }) (fun t => t.upc) = some 0x00#8 ∧
    ({ running 0x16#8 with rep := 1#17 } : State).upc ∈ delayStates ∧ (0x00#8 : Byte) ∉ delayStates :=
  ⟨⟨by constructor <;> decide, fun _ => by constructor <;> decide,
    fun _ _ => ⟨by unfold ReleasedInv; decide, fun _ => by constructor <;> decide⟩⟩, by decide, by decide, by decide⟩
theorem witness_MeaninglessAccessesRefused :
    0x08 ∈ [0x08, 0x0C, 0x10] ∧ 0x1C ∈ [0x14, 0x18, 0x1C] ∧ AccessSize.byte ≠ .word ∧ 0x1F % 4 ≠ 0 := by decide
theorem witness_HostUsesReleasedTimer : State.reset.life = false ∧ State.reset.busy = false ∧
    State.reset.params.wf = true ∧ State.reset.rccEn = false ∧
    (({ State.reset with rccEn := true } : State).rccEn = true ∧ State.reset.rccRst = false) ∧
    ((0x11#32).getLsbD State.reset.params.cenBit.val = true ∧ State.reset.tim.cen = false) ∧
    (0x10#32).getLsbD State.reset.params.cenBit.val = false := by decide
theorem witness_HostUsesReleasedRccBits : State.reset.life = false ∧ State.reset.busy = false := by decide
theorem witness_BusWordsCarryFieldEffects : Params.default.cenBit ≠ Params.default.dirBit := by decide
theorem witness_AddressesAlignedAndPlaced : (Params.default.wf = true ∧ (0x40000000#32).toNat % 4 = 0 ∧
      (0x40021058#32).toNat % 4 = 0 ∧ (0x40021038#32).toNat % 4 = 0) ∧
    0x1F < Config.platform.length .controller ∧ 3 < Config.platform.length (.rcc .rst) ∧
    Config.platform.base .controller + BitVec.ofNat 32 0x1F = Config.platform.base .controller + BitVec.ofNat 32 0x1F :=
  ⟨by decide, by decide, by decide, rfl⟩

end Sys2Proof.Tests
end

/-!
PROOFS. The address map (20_memory.md R70, R71, R76, R78, R81, R85): the windows of a platform that meets R85 have no
address in common but for an RCC register that holds both bits, so an address names one access.
-/

namespace Sys2Proof

/-! ## The addresses of SEQ's bus events -/

/-- R81: the timer registers of well-formed parameters begin at words. -/
theorem Params.offset_aligned {p : Params} (h : p.wf = true) (r : TimReg) : p.offset r % 4 = 0 := by
  simp only [Params.wf, Bool.and_eq_true, List.all_cons, List.all_nil, decide_eq_true_eq] at h
  obtain ⟨-, hcr1, hsr, hcnt, hpsc, harr, -⟩ := h
  cases r <;> assumption

/-- An aligned offset from an aligned base is an aligned address, also where the sum wraps around. -/
theorem toNat_add_ofNat_aligned {base : Word} {off : Nat} (hb : base.toNat % 4 = 0) (ho : off % 4 = 0) :
    (base + BitVec.ofNat 32 off).toNat % 4 = 0 := by
  rw [BitVec.toNat_add, BitVec.toNat_ofNat]
  omega

theorem BusEvent.address_aligned {pl : Platform} {p : Params} (hp : p.wf = true) (ht : pl.timBase.toNat % 4 = 0)
    (he : pl.rccEnAddr.toNat % 4 = 0) (hr : pl.rccRstAddr.toNat % 4 = 0) (e : BusEvent) :
    (e.address pl p).toNat % 4 = 0 := by
  have reg (r : TimReg) : (pl.timBase + BitVec.ofNat 32 (p.offset r)).toNat % 4 = 0 :=
    toNat_add_ofNat_aligned ht (Params.offset_aligned hp r)
  have rcc (b : RccBit) : (pl.rccAddr b).toNat % 4 = 0 := by cases b <;> assumption
  cases e with
  | memWrite r _ => exact reg r
  | memRead r => exact reg r
  | atomicSet b => exact rcc b
  | atomicClear b => exact rcc b

/-! ## The windows of a platform that meets R85 -/

/-- Both windows are RCC registers at one address, which R85 allows only if the two bits differ. -/
def Platform.SharedRcc (pl : Platform) (v w : Window) : Prop :=
  ∃ b c, v = .rcc b ∧ w = .rcc c ∧ pl.rccAddr b = pl.rccAddr c ∧ pl.rccEnBit ≠ pl.rccRstBit

section Windows
variable {pl : Platform} {v w : Window} {i j off : Nat} {a : Word}

theorem Platform.apart_comm (pl : Platform) (v w : Window) : pl.apart v w = pl.apart w v :=
  decide_eq_decide.2 or_comm

/-- R70: a window does not run past the end of the address space. -/
theorem Platform.base_add_length_le (h : pl.wf = true) (w : Window) :
    (pl.base w).toNat + pl.length w ≤ 2 ^ 32 := by
  simp only [Platform.wf, Platform.fits, Bool.and_eq_true, decide_eq_true_eq] at h
  cases w with
  | controller => omega
  | timer => omega
  | rcc b => cases b <;> omega

/-- R85: two windows have no byte in common, or they are one RCC register. -/
theorem Platform.apart_or_sharedRcc (h : pl.wf = true) (hne : v ≠ w) :
    pl.apart v w = true ∨ pl.SharedRcc v w := by
  simp only [Platform.wf, Bool.and_eq_true] at h
  obtain ⟨⟨⟨⟨⟨⟨⟨-, hct⟩, hce⟩, hcr⟩, hte⟩, htr⟩, hrcc⟩, -⟩ := h
  have shared : pl.apart (.rcc .en) (.rcc .rst) = true ∨
      (pl.rccEnAddr = pl.rccRstAddr ∧ pl.rccEnBit ≠ pl.rccRstBit) := by
    split at hrcc
    · exact .inr ⟨‹_›, of_decide_eq_true hrcc⟩
    · exact .inl hrcc
  have ctrlRcc (b : RccBit) : pl.apart .controller (.rcc b) = true := by cases b <;> assumption
  have timRcc (b : RccBit) : pl.apart .timer (.rcc b) = true := by cases b <;> assumption
  match v, w with
  | .controller, .controller => exact absurd rfl hne
  | .timer, .timer => exact absurd rfl hne
  | .controller, .timer => exact .inl hct
  | .timer, .controller => exact .inl (pl.apart_comm .. ▸ hct)
  | .controller, .rcc b => exact .inl (ctrlRcc b)
  | .rcc b, .controller => exact .inl (pl.apart_comm .. ▸ ctrlRcc b)
  | .timer, .rcc b => exact .inl (timRcc b)
  | .rcc b, .timer => exact .inl (pl.apart_comm .. ▸ timRcc b)
  | .rcc .en, .rcc .en => exact absurd rfl hne
  | .rcc .rst, .rcc .rst => exact absurd rfl hne
  | .rcc .en, .rcc .rst => exact shared.imp_right fun ⟨ha, hb⟩ => ⟨_, _, rfl, rfl, ha, hb⟩
  | .rcc .rst, .rcc .en =>
    exact shared.imp (pl.apart_comm .. ▸ ·) fun ⟨ha, hb⟩ => ⟨_, _, rfl, rfl, ha.symm, hb⟩

/-- Within a window, adding the offset to the base does not wrap around. -/
theorem Platform.toNat_base_add (h : pl.wf = true) (hi : off < pl.length w) :
    (pl.base w + BitVec.ofNat 32 off).toNat = (pl.base w).toNat + off := by
  have := Platform.base_add_length_le h w
  rw [BitVec.toNat_add, BitVec.toNat_ofNat]
  omega

/-- R85: an address has one offset, and lies in one window or in the RCC register that is both bits'. -/
theorem Platform.window_unique (h : pl.wf = true) (hi : i < pl.length v) (hj : j < pl.length w)
    (heq : pl.base v + BitVec.ofNat 32 i = pl.base w + BitVec.ofNat 32 j) :
    i = j ∧ (v = w ∨ pl.SharedRcc v w) := by
  have hnat : (pl.base v).toNat + i = (pl.base w).toNat + j := by
    rw [← Platform.toNat_base_add h hi, heq, Platform.toNat_base_add h hj]
  by_cases hvw : v = w
  · subst hvw
    exact ⟨by omega, .inl rfl⟩
  · rcases Platform.apart_or_sharedRcc h hvw with hd | hs
    · have := of_decide_eq_true hd
      omega
    · have hbase : pl.base v = pl.base w := by
        obtain ⟨_, _, rfl, rfl, ha, -⟩ := hs
        exact ha
      exact ⟨by rw [hbase] at hnat; omega, .inr hs⟩

/-! ## Where an address is located -/

theorem Platform.offsetIn_base_add (h : pl.wf = true) (hi : off < pl.length w) :
    pl.offsetIn (pl.base w + BitVec.ofNat 32 off) w = some off := by
  have hsub : (pl.base w + BitVec.ofNat 32 off - pl.base w).toNat = off := by
    have := Platform.base_add_length_le h w
    rw [add_sub_cancel_left, BitVec.toNat_ofNat]
    omega
  unfold Platform.offsetIn
  rw [hsub, if_pos hi]

theorem Platform.of_offsetIn_eq_some (h : pl.offsetIn a w = some off) :
    off < pl.length w ∧ a = pl.base w + BitVec.ofNat 32 off := by
  unfold Platform.offsetIn at h
  split at h
  · obtain rfl := Option.some.inj h
    exact ⟨‹_›, by rw [BitVec.ofNat_toNat, BitVec.setWidth_eq, add_sub_cancel]⟩
  · cases h

/-- `locate` answers a window the address lies in. -/
theorem Platform.offsetIn_of_locate (h : pl.locate a = some (w, off)) : pl.offsetIn a w = some off := by
  simp only [Platform.locate, Option.orElse_eq_some, Option.map_eq_some_iff, Prod.mk.injEq] at h
  rcases h with ⟨_, ho, rfl, rfl⟩ | ⟨-, ⟨_, ho, rfl, rfl⟩ | ⟨-, ⟨_, ho, rfl, rfl⟩ | ⟨-, _, ho, rfl, rfl⟩⟩⟩ <;> exact ho

/-- `locate` misses no address that lies in a window. -/
theorem Platform.offsetIn_of_locate_eq_none (h : pl.locate a = none) (w : Window) : pl.offsetIn a w = none := by
  simp only [Platform.locate, Option.orElse_eq_none, Option.map_eq_none_iff] at h
  obtain ⟨hctrl, htim, hen, hrst⟩ := h
  match w with
  | .controller => exact hctrl
  | .timer => exact htim
  | .rcc .en => exact hen
  | .rcc .rst => exact hrst

/-- The address of a window's byte is located there, or in the RCC register that is the same one. -/
theorem Platform.locate_base_add (h : pl.wf = true) (hi : off < pl.length w) :
    ∃ v, pl.locate (pl.base w + BitVec.ofNat 32 off) = some (v, off) ∧ (v = w ∨ pl.SharedRcc v w) := by
  cases hl : pl.locate (pl.base w + BitVec.ofNat 32 off) with
  | none =>
    have hnone := Platform.offsetIn_of_locate_eq_none hl w
    rw [Platform.offsetIn_base_add h hi] at hnone
    cases hnone
  | some target =>
    obtain ⟨v, off'⟩ := target
    obtain ⟨hlt, heq⟩ := Platform.of_offsetIn_eq_some (Platform.offsetIn_of_locate hl)
    obtain ⟨rfl, hv⟩ := Platform.window_unique h hlt hi heq.symm
    exact ⟨v, rfl, hv⟩

end Windows

/-! ## HOST accesses by address -/

namespace Machine
section SharedRegister
variable {pl : Platform} {b c : RccBit}

theorem State.showRccBit_of_rccAddr_eq (h : pl.rccAddr b = pl.rccAddr c) :
    State.showRccBit pl b = State.showRccBit pl c := by
  unfold State.showRccBit Platform.holds
  rw [h]

theorem State.takeRccBit_of_rccAddr_eq (h : pl.rccAddr b = pl.rccAddr c) :
    State.takeRccBit pl b = State.takeRccBit pl c := by
  unfold State.takeRccBit Platform.holds
  rw [h]

/-- A read sees one register, by whichever of its bits it is named. -/
theorem State.readRcc_of_rccAddr_eq (h : Config.platform.rccAddr b = Config.platform.rccAddr c) :
    State.readRcc b = State.readRcc c := by
  unfold State.readRcc
  rw [State.showRccBit_of_rccAddr_eq h]

/-- A write reaches one register, by whichever of its bits it is named. -/
theorem State.writeRcc_of_rccAddr_eq (h : Config.platform.rccAddr b = Config.platform.rccAddr c) :
    State.writeRcc b = State.writeRcc c := by
  unfold State.writeRcc
  rw [State.takeRccBit_of_rccAddr_eq h]

theorem State.readWindow_of_sharedRcc {v w : Window} (h : Config.platform.SharedRcc v w) :
    State.readWindow v = State.readWindow w := by
  obtain ⟨_, _, rfl, rfl, ha, -⟩ := h
  exact State.readRcc_of_rccAddr_eq ha

theorem State.writeWindow_of_sharedRcc {v w : Window} (h : Config.platform.SharedRcc v w) :
    State.writeWindow v = State.writeWindow w := by
  obtain ⟨_, _, rfl, rfl, ha, -⟩ := h
  exact State.writeRcc_of_rccAddr_eq ha

end SharedRegister

section Places
variable {s : State} {place : Place} {win : Window} {off : Nat} {size : AccessSize} {v : Word}

theorem act_hostRead_of_locate (h : place.locate Config.platform = some (win, off)) :
    act (.hostRead place size) s = s.readWindow win off size := by
  simp [act, State.hostRead, h]

theorem act_hostWrite_of_locate (h : place.locate Config.platform = some (win, off)) :
    act (.hostWrite place size v) s = s.writeWindow win off size v := by
  simp [act, State.hostWrite, h]

/-- A HOST access by address is the access to the window and offset the address lies in. -/
theorem act_address_eq_inWindow (hi : off < Config.platform.length win) :
    act (.hostRead (.address (Config.platform.base win + BitVec.ofNat 32 off)) size) s =
      act (.hostRead (.inWindow win off) size) s ∧
    act (.hostWrite (.address (Config.platform.base win + BitVec.ofNat 32 off)) size v) s =
      act (.hostWrite (.inWindow win off) size v) s := by
  obtain ⟨win', hloc, hwin⟩ := Platform.locate_base_add Config.platform_wf hi
  rw [act_hostRead_of_locate (place := .address _) hloc, act_hostRead_of_locate (locate_inWindow _ win off),
    act_hostWrite_of_locate (place := .address _) hloc, act_hostWrite_of_locate (locate_inWindow _ win off)]
  rcases hwin with rfl | hs
  · exact ⟨rfl, rfl⟩
  · rw [State.readWindow_of_sharedRcc hs, State.writeWindow_of_sharedRcc hs]
    exact ⟨rfl, rfl⟩

end Places

/-- Settles O58: alignment from the multiples of 4, and the placing from R85, by which an address lies in one window or in
the RCC register of both bits, where the two names reach the same register. -/
theorem addressesAlignedAndPlaced : Obligations.AddressesAlignedAndPlaced := by
  refine ⟨fun _ _ e hp ht he hr => e.address_aligned hp ht he hr,
    fun _ _ _ _ _ hi => act_address_eq_inWindow hi, fun v w i j hi hj heq => ?_⟩
  obtain ⟨hij, hvw⟩ := Platform.window_unique Config.platform_wf hi hj heq
  exact ⟨hij, hvw.imp_right fun ⟨b, c, hv, hw, _, hbit⟩ => ⟨b, c, hv, hw, hbit⟩⟩

end Machine
end Sys2Proof

/-!
PROOFS. The registers of the controller (10_state.md): which event may write FAULT and FCODE (R33), LIFE (R31), USPSC and
MSPSC (R35, R36) and the environment inputs (R59), that ARG does not reach SEQ (R34), and that SEQ finds its micro-state
(R37).
-/

namespace Sys2Proof.Machine

/-! ## Who writes the controller registers (R64) -/

/-- LIFE, FAULT, FCODE, the cached prescalers and the inputs are kept: what HOST's accesses other than a CMD write and the
turns of TIM and ENV have in common. -/
structure KeepsController (s t : State) : Prop where
  life : t.life = s.life
  fault : t.fault = s.fault
  fcode : t.fcode = s.fcode
  usPsc : t.usPsc = s.usPsc
  msPsc : t.msPsc = s.msPsc
  clkRun : t.clkRun = s.clkRun
  params : t.params = s.params

/-- `ActCase` with the events that keep those registers and inputs taken together. -/
inductive WriterCase (e : Event) (s t : State) : Prop
  | command (c : Word) (host : e.isCommand c) (issues : s.issueCommand c = .next t)
  | seq (event : e = .seq) (turn : s.seqTurn = .next t)
  | clkRun (run : Bool) (event : e = .clkRun run) (leaves : t = { s with clkRun := run })
  | engReset (event : e = .engReset) (leaves : t = s.engineReset)
  | sysReset (event : e = .sysReset) (leaves : t = s.systemReset)
  | other (keeps : KeepsController s t)

section Writers
variable {e : Event} {s t : State} {c : Word}

theorem KeepsController.refl (s : State) : KeepsController s s := by constructor <;> rfl

theorem State.writeTimerReg_keepsController (s : State) (r : TimReg) (v : Word) :
    KeepsController s (s.writeTimerReg r v) := by
  obtain ⟨_, _, heq, -⟩ := s.writeTimerReg_eq r v
  rw [heq]
  constructor <;> rfl

theorem RccUse.keepsController (h : RccUse s t) : KeepsController s t := by
  obtain ⟨_, _, _, rfl, -⟩ := h
  constructor <;> rfl

theorem State.timTurn_keepsController (h : s.timTurn = .next t) : KeepsController s t := by
  rcases State.timTurn_next h with ⟨-, rfl⟩ | ⟨-, -, rfl⟩
  · exact .refl _
  · constructor <;> rfl

/-- LIFE, FAULT, FCODE, the cached prescalers and the inputs are written by a CMD write, SEQ's turn, the clock event or a
reset, and by nothing else. -/
theorem act_writer (h : act e s = .next t) : WriterCase e s t := by
  cases act_next h with
  | command c host issues => exact .command c host issues
  | seq event turn => exact .seq event turn
  | clkRun run event leaves => exact .clkRun run event leaves
  | engReset event leaves => exact .engReset event leaves
  | sysReset event leaves => exact .sysReset event leaves
  | read _ _ _ _ leaves => exact .other (leaves ▸ by constructor <;> rfl)
  | argument _ _ _ leaves => exact .other (leaves ▸ by constructor <;> rfl)
  | timerWrite r v _ _ _ leaves => exact .other (leaves ▸ s.writeTimerReg_keepsController r v)
  | ignored _ _ leaves => exact .other (leaves ▸ .refl s)
  | rccWrite _ _ use => exact .other use.keepsController
  | race _ _ _ leaves => exact .other (leaves ▸ by constructor <;> rfl)
  | tim _ turn => exact .other (State.timTurn_keepsController turn)
  | env _ leaves => exact .other (leaves ▸ .refl s)

/-! ## What a CMD write and a SEQ turn do to them -/

/-- R259: a CMD write is ignored while FAULT = 1. -/
theorem State.issueCommand_faulted (hf : s.fault = true) : s.issueCommand c = .next s := by
  rcases s.issueCommand_cases c with ⟨-, -, h⟩ | ⟨-, -, h⟩ | ⟨_, _, -, -, -, h⟩ | ⟨-, h⟩ <;>
    rw [h, s.commandGate_faulted _ hf]

/-- R31, R136: a CMD write changes LIFE only where it accepts INIT. -/
theorem State.issueCommand_life (h : s.issueCommand c = .next t) :
    t.life = s.life ∨ (cmdOpc c = 0x01#8 ∧ t.life = true ∧ t.upc = Upc.enSet) := by
  obtain ⟨t', h', hcase⟩ := s.issueCommand_next c
  obtain rfl := Host.Outcome.next.inj (h.symm.trans h')
  rcases hcase with ⟨-, rfl⟩ | ⟨-, -, rfl⟩ | ⟨-, -, _, rfl⟩ | ⟨-, -, -, hopc, -, rfl⟩ | ⟨-, -, -, -, rfl⟩ |
    ⟨-, -, -, _, _, -, rfl⟩
  case inr.inr.inr.inl => exact .inr ⟨hopc, rfl, rfl⟩
  all_goals exact .inl rfl

theorem State.issueCommand_keeps (h : s.issueCommand c = .next t) :
    t.usPsc = s.usPsc ∧ t.msPsc = s.msPsc ∧ t.clkRun = s.clkRun ∧ t.params = s.params := by
  obtain ⟨t', h', -, -, -, hclk, hus, hms, -, hparams, -⟩ := s.issueCommand_frame c
  obtain rfl := Host.Outcome.next.inj (h.symm.trans h')
  exact ⟨hus, hms, hclk, hparams⟩

/-- R31, R149: of SEQ's micro-operations only EN_CLR writes LIFE; R35, R36: only CALC writes the cached prescalers. -/
theorem State.seqTurn_life_prescalers (h : s.seqTurn = .next t) :
    (t.life = s.life ∨ (s.upc = Upc.enClr ∧ t.life = false)) ∧
    ((t.usPsc = s.usPsc ∧ t.msPsc = s.msPsc) ∨ s.upc = Upc.calc) := by
  cases State.seqTurn_next h
  case uopEnClr code leaves => subst leaves; exact ⟨.inr ⟨code, rfl⟩, .inl ⟨rfl, rfl⟩⟩
  case uopCalc code leaves => subst leaves; exact ⟨.inl rfl, .inr code⟩
  case uopRstClr _ leaves =>
    obtain ⟨_, _, heq, -⟩ := State.afterResetPulse_frame ((s.writeRst false).logBus (.atomicClear .rst))
    rw [leaves, heq]
    exact ⟨.inl rfl, .inl ⟨rfl, rfl⟩⟩
  case uopCenClr _ leaves =>
    obtain ⟨_, _, _, heq, -⟩ := State.afterRepetition_frame
      (s.seqWrite .cr1 (cr1Word s.params true false) (Timer.setCr1 true false)).countRepetition
    rw [leaves, heq]
    exact ⟨.inl rfl, .inl ⟨rfl, rfl⟩⟩
  all_goals
    rename_i leaves
    subst leaves
    exact ⟨.inl rfl, .inl ⟨rfl, rfl⟩⟩

end Writers

/-- Settles O15: a CMD write is ignored while FAULT = 1, and of the other events only the resets write FAULT or FCODE. -/
theorem faultClearsOnlyAtReset : Obligations.FaultClearsOnlyAtReset := by
  intro e s t h hf heng hsys
  cases act_writer h with
  | command c _ issues =>
    obtain rfl := Host.Outcome.next.inj ((State.issueCommand_faulted hf).symm.trans issues)
    exact ⟨hf, rfl⟩
  | seq _ turn =>
    obtain ⟨hfault, hfcode, -⟩ := State.seqTurn_frame turn
    exact ⟨hfault.trans hf, hfcode⟩
  | clkRun _ _ leaves => exact leaves ▸ ⟨hf, rfl⟩
  | engReset event _ => exact absurd event heng
  | sysReset event _ => exact absurd event hsys
  | other keeps => exact ⟨keeps.fault.trans hf, keeps.fcode⟩

/-- Settles O47: INIT's accept is the one CMD write that changes LIFE, and EN_CLR the one micro-operation. -/
theorem lifeChangesOnlyAtInitAndRelease : Obligations.LifeChangesOnlyAtInitAndRelease := by
  intro e s t h
  by_cases hkept : t.life = s.life
  · exact ⟨fun hlow hrise => by simp [hkept, hlow] at hrise, fun hhigh hfall => by simp [hkept, hhigh] at hfall⟩
  cases act_writer h with
  | command c host issues =>
    obtain ⟨hopc, hlife, hupc⟩ := (State.issueCommand_life issues).resolve_left hkept
    exact ⟨fun _ _ => ⟨⟨c, host, (cmdOpc_eq_iff c _).1 hopc⟩, hupc⟩, fun _ hfall => by simp [hlife] at hfall⟩
  | seq event turn =>
    obtain ⟨hupc, hlife⟩ := (State.seqTurn_life_prescalers turn).1.resolve_left hkept
    exact ⟨fun _ hrise => by simp [hlife] at hrise, fun _ _ => .inl ⟨event, hupc⟩⟩
  | clkRun _ _ leaves => exact absurd (leaves ▸ rfl) hkept
  | engReset event leaves => exact ⟨fun _ hrise => by simp [leaves] at hrise, fun _ _ => .inr (.inl event)⟩
  | sysReset event leaves => exact ⟨fun _ hrise => by simp [leaves] at hrise, fun _ _ => .inr (.inr event)⟩
  | other keeps => exact absurd keeps.life hkept

/-- Settles O48: a CMD write reads the cached prescalers at most, and CALC is the one micro-operation that writes them. -/
theorem onlyCalcWritesPrescalers : Obligations.OnlyCalcWritesPrescalers := by
  intro e s t h heng hsys hchange
  have notKept : ¬ (t.usPsc = s.usPsc ∧ t.msPsc = s.msPsc) := fun ⟨hus, hms⟩ => hchange.elim (· hus) (· hms)
  cases act_writer h with
  | command _ _ issues =>
    obtain ⟨hus, hms, -⟩ := State.issueCommand_keeps issues
    exact absurd ⟨hus, hms⟩ notKept
  | seq event turn => exact ⟨event, (State.seqTurn_life_prescalers turn).2.resolve_left notKept⟩
  | clkRun _ _ leaves => exact absurd (leaves ▸ ⟨rfl, rfl⟩) notKept
  | engReset event _ => exact absurd event heng
  | sysReset event _ => exact absurd event hsys
  | other keeps => exact absurd ⟨keeps.usPsc, keeps.msPsc⟩ notKept

/-- Settles O50: no writer of a controller register writes the parameters, and only the clock event writes CLK_RUN. -/
theorem environmentInputsAreNotWritten : Obligations.EnvironmentInputsAreNotWritten := by
  refine ⟨fun _ _ => rfl, fun e s t h => ?_⟩
  cases act_writer h with
  | command _ _ issues =>
    obtain ⟨-, -, hclk, hparams⟩ := State.issueCommand_keeps issues
    exact ⟨hparams, fun _ => hclk⟩
  | seq _ turn =>
    obtain ⟨-, -, -, hclk, -, -, -, hparams, -⟩ := State.seqTurn_frame turn
    exact ⟨hparams, fun _ => hclk⟩
  | clkRun run event leaves => exact ⟨leaves ▸ rfl, fun hother => absurd event (hother run)⟩
  | engReset _ leaves => exact ⟨leaves ▸ rfl, fun _ => leaves ▸ rfl⟩
  | sysReset _ leaves => exact ⟨leaves ▸ rfl, fun _ => leaves ▸ rfl⟩
  | other keeps => exact ⟨keeps.params, fun _ => keeps.clkRun⟩

/-! ## SEQ's turn and the table of micro-states (R37, R109) -/

/-- Every instruction has a meaning and none stops the machine. -/
theorem exec_goesOn (i : Instr) (s : State) : ∃ t, exec i s = .next t := by
  cases i <;> exact ⟨_, rfl⟩

/-- A code that decodes is in the table (R109). -/
theorem mem_microStates_of_decodeMicro {u : Byte} {i : Instr} (h : decodeMicro u = .ok i) : u ∈ microStates := by
  have hrow := decodeMicro_table u
  rw [h] at hrow
  exact List.mem_map_of_mem (f := Prod.fst) (of_decide_eq_true hrow)

theorem State.seqTurn_of_not_mem {s : State} (h : s.upc ∉ microStates) : s.seqTurn = .fault .unreachableMicroState := by
  unfold State.seqTurn
  cases hd : decodeMicro s.upc with
  | ok i => exact absurd (mem_microStates_of_decodeMicro hd) h
  | error _ => rfl

/-! ## ARG and the micro-operations (R34) -/

/-- The state with `a` in ARG. -/
def State.setArg (a : Word) (s : State) : State := { s with arg := a }

section Argument
variable (s : State) (a : Word)

theorem State.afterResetPulse_setArg : (s.setArg a).afterResetPulse = s.afterResetPulse.setArg a := by
  unfold State.afterResetPulse State.setArg
  dsimp only
  split
  · rfl
  · split <;> rfl

theorem State.afterRepetition_setArg : (s.setArg a).afterRepetition = s.afterRepetition.setArg a := by
  unfold State.afterRepetition State.setArg
  dsimp only
  split
  · rfl
  · split
    · split <;> rfl
    · rfl

/-- R34, R308: a micro-operation does the same whatever ARG holds. -/
theorem exec_setArg_of_micro {i : Instr} {u : Byte} {t : State} (hi : encode i = .micro u) (h : exec i s = .next t) :
    exec i (s.setArg a) = .next (t.setArg a) := by
  cases i
  case uopRstClr =>
    cases h
    exact congrArg Host.Outcome.next (State.afterResetPulse_setArg ((s.writeRst false).logBus (.atomicClear .rst)) a)
  case uopCenClr =>
    cases h
    exact congrArg Host.Outcome.next (State.afterRepetition_setArg
      (s.seqWrite .cr1 (cr1Word s.params true false) (Timer.setCr1 true false)).countRepetition a)
  case init | release | delayMs8 | delayMs16 | delayMs32 | delayUs8 | delayUs16 | delayUs32 => cases hi
  all_goals
    cases h
    rfl

end Argument

/-- Settles O49: SEQ's turn runs the micro-operation of upc, and no micro-operation reads or writes ARG. -/
theorem argDoesNotReachSequencer : Obligations.ArgDoesNotReachSequencer := by
  intro s a hu
  obtain ⟨i, hd⟩ := decodeMicro_of_mem s.upc hu
  obtain ⟨t, ht⟩ := exec_goesOn i s
  have hturn : s.seqTurn = .next t := (s.seqTurn_of hd).trans ht
  have hturnArg : (s.setArg a).seqTurn = .next (t.setArg a) :=
    (State.seqTurn_of (s.setArg a) hd).trans (exec_setArg_of_micro s a (decodeMicro_encode hd) ht)
  obtain ⟨-, -, harg, -⟩ := State.seqTurn_frame hturn
  exact ⟨t, hturn, hturnArg, harg⟩

/-! ## What stops with a fault (R84) -/

/-- The machine goes on, or the model refuses the event. -/
def NoFaultStop (o : Host.Outcome State Fault Refusal) : Prop := ∀ r, o ≠ .fault r

section FaultStops
variable (s : State)

theorem noFaultStop_next : NoFaultStop (.next s) := nofun

theorem noFaultStop_refused (r : Refusal) : NoFaultStop (.refused r) := nofun

theorem wholeWord_noFaultStop (off : Nat) (size : AccessSize) {k : Host.Outcome State Fault Refusal}
    (hk : NoFaultStop k) : NoFaultStop (wholeWord off size k) := by
  unfold wholeWord
  split
  · exact noFaultStop_refused _
  · split
    · exact noFaultStop_refused _
    · exact hk

theorem wholeRegister_noFaultStop (off : Nat) (size : AccessSize) {k : Host.Outcome State Fault Refusal}
    (hk : NoFaultStop k) : NoFaultStop (wholeRegister off size k) := by
  refine wholeWord_noFaultStop off size ?_
  split
  · exact hk
  · exact noFaultStop_refused _

theorem State.readController_noFaultStop (off : Nat) (size : AccessSize) : NoFaultStop (s.readController off size) := by
  refine wholeWord_noFaultStop off size ?_
  repeat' split
  all_goals exact nofun

theorem State.writeController_noFaultStop (off : Nat) (size : AccessSize) (v : Word)
    {issue : Host.Outcome State Fault Refusal} (hi : NoFaultStop issue) :
    NoFaultStop (s.writeController off size v issue) := by
  refine wholeWord_noFaultStop off size ?_
  split
  · exact hi
  · repeat' split
    all_goals exact nofun

theorem State.readTimer_noFaultStop (off : Nat) (size : AccessSize) : NoFaultStop (s.readTimer off size) := by
  unfold State.readTimer
  split
  · exact noFaultStop_next _
  · split
    · refine wholeWord_noFaultStop off size ?_
      split <;> exact nofun
    · exact noFaultStop_next _

theorem State.writeTimer_noFaultStop (off : Nat) (size : AccessSize) (v : Word) :
    NoFaultStop (s.writeTimer off size v) := by
  unfold State.writeTimer
  split
  · exact noFaultStop_next _
  · split
    · refine wholeWord_noFaultStop off size ?_
      split <;> exact nofun
    · exact noFaultStop_next _

theorem State.readRcc_noFaultStop (r : RccBit) (off : Nat) (size : AccessSize) : NoFaultStop (s.readRcc r off size) := by
  unfold State.readRcc
  split
  · exact noFaultStop_next _
  · exact wholeRegister_noFaultStop off size (noFaultStop_next _)

theorem State.writeRcc_noFaultStop (r : RccBit) (off : Nat) (size : AccessSize) (v : Word) :
    NoFaultStop (s.writeRcc r off size v) := by
  unfold State.writeRcc
  split
  · exact noFaultStop_next _
  · exact wholeRegister_noFaultStop off size (noFaultStop_next _)

theorem State.issueCommand_noFaultStop (c : Word) : NoFaultStop (s.issueCommand c) := by
  obtain ⟨_, h, -⟩ := s.issueCommand_next c
  exact h ▸ noFaultStop_next _

theorem State.hostRead_noFaultStop (place : Place) (size : AccessSize) : NoFaultStop (s.hostRead place size) := by
  unfold State.hostRead
  split
  next win off _ =>
    cases win with
    | controller => exact s.readController_noFaultStop off size
    | timer => exact s.readTimer_noFaultStop off size
    | rcc r => exact s.readRcc_noFaultStop r off size
  next => exact noFaultStop_refused _

theorem State.hostWrite_noFaultStop (place : Place) (size : AccessSize) (v : Word) :
    NoFaultStop (s.hostWrite place size v) := by
  unfold State.hostWrite
  split
  next win off _ =>
    cases win with
    | controller => exact s.writeController_noFaultStop off size v (s.issueCommand_noFaultStop v)
    | timer => exact s.writeTimer_noFaultStop off size v
    | rcc r => exact s.writeRcc_noFaultStop r off size v
  next => exact noFaultStop_refused _

theorem State.timTurn_noFaultStop : NoFaultStop s.timTurn := by
  unfold State.timTurn
  repeat' split
  all_goals exact nofun

theorem State.seqTurn_noFaultStop (h : s.upc ∈ microStates) : NoFaultStop s.seqTurn := by
  obtain ⟨i, hd⟩ := decodeMicro_of_mem s.upc h
  obtain ⟨_, ht⟩ := exec_goesOn i s
  rw [s.seqTurn_of hd, ht]
  exact noFaultStop_next _

/-- R37: with upc in the table no event stops the machine with a fault. -/
theorem act_noFaultStop (e : Event) (h : s.upc ∈ microStates) : NoFaultStop (act e s) := by
  cases e with
  | hostRead place size => exact s.hostRead_noFaultStop place size
  | hostWrite place size v => exact s.hostWrite_noFaultStop place size v
  | seq => exact s.seqTurn_noFaultStop h
  | tim => exact s.timTurn_noFaultStop
  | hostBit | env | clkRun | engReset | sysReset => exact noFaultStop_next _

theorem State.afterFetch_upc : s.afterFetch.upc = s.upc := by
  obtain ⟨_, _, h⟩ := s.afterFetch_eq
  rw [h]

end FaultStops

/-- Settles O46: the invariant keeps upc in the table, and SEQ's turn outside it is the one fault stop of the model. -/
theorem noFaultStopUnderInv : Obligations.NoFaultStopUnderInv := by
  refine ⟨fun s r hinv => ?_, fun s hu => State.seqTurn_of_not_mem hu⟩
  obtain ⟨hcontrol, -⟩ := hinv
  exact act_noFaultStop s.afterFetch s.nextEvent (s.afterFetch_upc.symm ▸ hcontrol.upc_in_table) r

end Sys2Proof.Machine

/-!
PROOFS. The register interface (20_memory.md): the bits of the words SEQ writes to CR1 and SR (R78), the bits of STAT (R60),
and what HOST reads of the controller window, writes there and is refused (R71 to R75, R79, R81).
-/

namespace Sys2Proof.Machine

/-! ## The bits of SEQ's words (R78) -/

section BusWords
variable (p : Params) (t : Timer)

theorem getLsbD_bitAt (b c : Fin 32) (v : Bool) : (bitAt b v).getLsbD c.val = (v && decide (c = b)) := by
  cases v with
  | false => simp [bitAt]
  | true =>
    show (BitVec.twoPow 32 b.val).getLsbD c.val = _
    simp [Fin.ext_iff, eq_comm]

/-- With CEN and DIR apart, the CR1 word shows at DIR's position the direction it was made of. -/
theorem cr1Word_getLsbD_dirBit {p : Params} (h : p.cenBit ≠ p.dirBit) (dir cen : Bool) :
    (cr1Word p dir cen).getLsbD p.dirBit.val = dir := by
  rw [cr1Word, BitVec.getLsbD_or, getLsbD_bitAt, getLsbD_bitAt]
  simp [h.symm]

/-- With CEN and DIR apart, the CR1 word shows at CEN's position the enable it was made of. -/
theorem cr1Word_getLsbD_cenBit {p : Params} (h : p.cenBit ≠ p.dirBit) (dir cen : Bool) :
    (cr1Word p dir cen).getLsbD p.cenBit.val = cen := by
  rw [cr1Word, BitVec.getLsbD_or, getLsbD_bitAt, getLsbD_bitAt]
  simp [h]

theorem uifClearWord_getLsbD_uifBit : (uifClearWord p).getLsbD p.uifBit.val = false := by
  rw [uifClearWord_eq, BitVec.getLsbD_not, show 1#32 <<< p.uifBit.val = bitAt p.uifBit true from rfl, getLsbD_bitAt]
  simp

/-- R78: the CR1 word of a direction and an enable, written by bit position, sets these two fields. -/
theorem Timer.writeWord_cr1Word {p : Params} (h : p.cenBit ≠ p.dirBit) (dir cen : Bool) :
    Timer.writeWord p .cr1 (cr1Word p dir cen) t = t.setCr1 dir cen := by
  rw [Timer.writeWord, cr1Word_getLsbD_dirBit h, cr1Word_getLsbD_cenBit h]

/-- R78, R221: the SR word of UIF_CLR, written by bit position, clears UIF. -/
theorem Timer.writeWord_uifClearWord : Timer.writeWord p .sr (uifClearWord p) t = t.clearUif := by
  rw [Timer.writeWord, uifClearWord_getLsbD_uifBit, if_neg Bool.false_ne_true]

end BusWords

/-- Settles O57: the three words are those of DIR and CEN and of UIF, which read back by bit position what made them. -/
theorem busWordsCarryFieldEffects : Obligations.BusWordsCarryFieldEffects := by
  intro p t h
  rw [← cr1Word_down_enabled, ← cr1Word_down, ← uifClearWord_eq]
  exact ⟨Timer.writeWord_cr1Word t h true false, Timer.writeWord_cr1Word t h true true,
    Timer.writeWord_uifClearWord p t⟩

/-! ## The bits of the STAT word (R60) -/

section Registers
variable (s : State)

/-- Bit 1 of STAT is LIFE (R60). -/
theorem State.statWord_life : s.statWord.getLsbD 1 = s.life := by
  simp only [State.statWord, BitVec.getLsbD_append, BitVec.getLsbD_ofBool]
  simp

/-- Bit 3 of STAT is 0 (R60). -/
theorem State.statWord_bit3 : s.statWord.getLsbD 3 = false := by
  simp only [State.statWord, BitVec.getLsbD_append, BitVec.getLsbD_ofBool]
  simp

/-- STAT from bit 4 up is FCODE, zero-extended (R60). -/
theorem State.statWord_fcode (i : Nat) : s.statWord.getLsbD (4 + i) = s.fcode.getLsbD i := by
  rw [Nat.add_comm]
  simp only [State.statWord, BitVec.getLsbD_append, BitVec.getLsbD_ofBool]
  simpa using BitVec.lt_of_getLsbD

/-! ## What HOST reads of the controller registers (R73, R74) -/

theorem act_rdArg : act rdArg s = .next { s with hostData := some s.arg } := rfl

theorem act_rdStat : act rdStat s = .next { s with hostData := some s.statWord } := rfl

theorem act_rdUsPsc : act rdUsPsc s = .next { s with hostData := some s.usPsc } := rfl

theorem act_rdMsPsc : act rdMsPsc s = .next { s with hostData := some s.msPsc } := rfl

end Registers

/-- Settles O53: each offset has its register, and STAT's word is R60's: three flags, a 0, and FCODE zero-extended. -/
theorem hostReadsAndWritesRegisters : Obligations.HostReadsAndWritesRegisters := by
  intro s v
  refine ⟨act_rdArg s, act_rdUsPsc s, act_rdMsPsc s, act_wrArg s v, s.statWord, act_rdStat s, s.statWord_busy,
    s.statWord_life, s.statWord_fault, s.statWord_bit3, fun i _ => s.statWord_fcode i, fun i hi => ?_⟩
  rw [show i = 4 + (i - 4) by omega, s.statWord_fcode]
  exact BitVec.getLsbD_of_ge _ _ (by omega)

/-! ## What the controller window refuses (R72, R74, R75, R79, R81) -/

section ControllerWindow
variable {s : State} {off : Nat} {size : AccessSize} {v : Word} {k issue : Host.Outcome State Fault Refusal}

theorem act_hostRead_controller :
    act (.hostRead (.inWindow .controller off) size) s = s.readController off size := rfl

theorem act_hostWrite_controller :
    act (.hostWrite (.inWindow .controller off) size v) s = s.writeController off size v (s.issueCommand v) := rfl

/-- R79: the size is looked at first. -/
theorem wholeWord_narrow (h : size ≠ .word) : wholeWord off size k = .refused .narrowAccess := if_pos h

/-- R81: the alignment is looked at after the size. -/
theorem wholeWord_misaligned (h : off % 4 ≠ 0) : wholeWord off .word k = .refused .misaligned := by
  rw [wholeWord, if_neg (not_not_intro rfl), if_pos h]

/-- R72: CMD is not read. -/
theorem State.readController_cmd : s.readController cmdOff .word = .refused .cmdRead := rfl

/-- R75: the words after MSPSC are neither read nor written. -/
theorem State.readController_writeController_reserved (h : off ∈ [0x14, 0x18, 0x1C]) :
    s.readController off .word = .refused .reservedOffset ∧
    s.writeController off .word v issue = .refused .reservedOffset := by
  simp only [List.mem_cons, List.not_mem_nil, or_false] at h
  rcases h with rfl | rfl | rfl <;> exact ⟨rfl, rfl⟩

/-- R74: STAT, USPSC and MSPSC are not written. -/
theorem State.writeController_readOnly (h : off ∈ [statOff, usPscOff, msPscOff]) :
    s.writeController off .word v issue = .refused .writeToReadOnly := by
  simp only [List.mem_cons, List.not_mem_nil, or_false] at h
  rcases h with rfl | rfl | rfl <;> rfl

end ControllerWindow

/-- Settles O54: the shape of an access is checked first, by size and then alignment, and then each offset answers. -/
theorem meaninglessAccessesRefused : Obligations.MeaninglessAccessesRefused := by
  intro s v off
  simp only [act_hostRead_controller, act_hostWrite_controller]
  exact ⟨State.readController_cmd, State.writeController_readOnly, State.readController_writeController_reserved,
    fun _ hsize => ⟨wholeWord_narrow hsize, wholeWord_narrow hsize⟩,
    fun hoff => ⟨wholeWord_misaligned hoff, wholeWord_misaligned hoff⟩⟩

end Sys2Proof.Machine

/-!
PROOFS. The encoding (30_encoding.md): what a legal command word with its ARG value is (R101 to R106), that the decoder of
R107 reads those and no others, and that encoder and decoder undo each other (R102, R109).
-/

namespace Sys2Proof

open Machine

/-! ## The fields of a command word (R101) -/

/-- R101: the command word with RSV = 0, the DIV1 bit and the opcode. -/
def commandWord (div1 : Bool) (opc : Byte) : Word := 0#23 ++ BitVec.ofBool div1 ++ opc

section Fields
variable (div1 : Bool) (opc : Byte)

@[simp] theorem commandWord_toNat : (commandWord div1 opc).toNat = 256 * div1.toNat + opc.toNat := by
  have hhigh : (0#23 ++ BitVec.ofBool div1).toNat = div1.toNat := by cases div1 <;> rfl
  rw [commandWord, BitVec.toNat_append, hhigh, ← Nat.shiftLeft_add_eq_or_of_lt opc.isLt, Nat.shiftLeft_eq, Nat.mul_comm]

@[simp] theorem cmdRsv_commandWord : cmdRsv (commandWord div1 opc) = 0#23 := by
  rw [cmdRsv_eq_zero_iff, commandWord_toNat]
  have := opc.isLt
  have := div1.toNat_le
  omega

@[simp] theorem cmdDiv1_commandWord : cmdDiv1 (commandWord div1 opc) = div1 := by
  rw [cmdDiv1_eq, commandWord_toNat]
  have := opc.isLt
  cases div1 <;> simp <;> omega

@[simp] theorem cmdOpc_commandWord : cmdOpc (commandWord div1 opc) = opc := by
  rw [cmdOpc_eq_iff, commandWord_toNat]
  have := opc.isLt
  omega

end Fields

/-- With RSV = 0, DIV1 and OPC are the whole word. -/
theorem eq_commandWord_of_cmdRsv {c : Word} (h : cmdRsv c = 0#23) : c = commandWord (cmdDiv1 c) (cmdOpc c) := by
  have hc := (cmdRsv_eq_zero_iff c).mp h
  have hopc := (cmdOpc_eq_iff c _).mp rfl
  apply BitVec.eq_of_toNat_eq
  rw [commandWord_toNat, cmdDiv1_eq, ← hopc]
  by_cases hd : c.toNat / 256 % 2 = 1 <;> simp [hd] <;> omega

/-! ## The legal command words (R102 to R105) -/

/-- The instruction that a legal command word with its ARG value is: INIT with either DIV1, RELEASE with any ARG value, and
the six delays with an operand in range. -/
inductive LegalCommand : Word → Word → Instr → Prop
  | init (div1 : Bool) (a : Word) : LegalCommand (commandWord div1 0x01#8) a (.init a div1)
  | release (a : Word) : LegalCommand (commandWord false 0x02#8) a .release
  | delay (u : DelayUnit) (w : OperandWidth) (a : Word) (operand : w.admits a = true) :
      LegalCommand (commandWord false (delayOpcode u w)) a (delayInstr u w a)

theorem delayOpcode_ne_init (u : DelayUnit) (w : OperandWidth) : delayOpcode u w ≠ 0x01#8 := by
  cases u <;> cases w <;> decide

theorem delayOpcode_ne_release (u : DelayUnit) (w : OperandWidth) : delayOpcode u w ≠ 0x02#8 := by
  cases u <;> cases w <;> decide

/-- Legal by the fields: RSV is 0, DIV1 is set in INIT only, and then OPC says which command it is. -/
theorem legalCommand_of_fields {c a : Word} (hrsv : cmdRsv c = 0#23) (hdiv : cmdDiv1 c = true → cmdOpc c = 0x01#8) :
    (cmdOpc c = 0x01#8 → LegalCommand c a (.init a (cmdDiv1 c))) ∧
    (cmdOpc c = 0x02#8 → LegalCommand c a .release) ∧
    ∀ u w, cmdOpc c = delayOpcode u w → w.admits a = true → LegalCommand c a (delayInstr u w a) := by
  have hword := eq_commandWord_of_cmdRsv hrsv
  have hdiv0 (hopc : cmdOpc c ≠ 0x01#8) : cmdDiv1 c = false := Bool.eq_false_iff.mpr (mt hdiv hopc)
  refine ⟨fun hopc => ?_, fun hopc => ?_, fun u w hopc operand => ?_⟩
  · have hlegal := LegalCommand.init (cmdDiv1 c) a
    rwa [← hopc, ← hword] at hlegal
  · rw [hword, hdiv0 (by rw [hopc]; decide), hopc]
    exact .release a
  · rw [hword, hdiv0 (hopc ▸ delayOpcode_ne_init u w), hopc]
    exact .delay u w a operand

theorem encode_init (pclk : Word) (div1 : Bool) :
    encode (.init pclk div1) = .command (commandWord div1 0x01#8) pclk := by
  cases div1 <;> rfl

theorem encode_delayInstr (u : DelayUnit) (w : OperandWidth) (n : Word) :
    encode (delayInstr u w n) = .command (commandWord false (delayOpcode u w)) n := by
  cases u <;> cases w <;> rfl

theorem wellFormed_delayInstr (u : DelayUnit) (w : OperandWidth) (n : Word) :
    (delayInstr u w n).wellFormed = w.admits n := by
  cases u <;> cases w <;> rfl

/-- Only the delays have an operand constraint, and no delay is a micro-operation (R104, R109). -/
theorem wellFormed_of_encode_micro {i : Instr} {u : Byte} (h : encode i = .micro u) : i.wellFormed = true := by
  cases i with
  | delayMs8 | delayMs16 | delayUs8 | delayUs16 => cases h
  | _ => rfl

theorem delayInstr_ne_release (u : DelayUnit) (w : OperandWidth) (n : Word) : delayInstr u w n ≠ .release := by
  cases u <;> cases w <;> exact Instr.noConfusion

theorem decodeCommand_delay (u : DelayUnit) (w : OperandWidth) (a : Word) :
    decodeCommand (commandWord false (delayOpcode u w)) a = decodeDelay w (delayInstr u w) a := by
  cases u <;> cases w <;> rfl

/-- The decoder reads every legal command word. -/
theorem LegalCommand.decodes {c a : Word} {i : Instr} (h : LegalCommand c a i) :
    decodeCommand c a = .ok i := by
  cases h with
  | init div1 => cases div1 <;> rfl
  | release => rfl
  | delay u w _ operand => rw [decodeCommand_delay, decodeDelay, argFits_eq_admits, if_pos operand]

theorem cmdRsv_of_decodeCommand {c a : Word} {i : Instr} (h : decodeCommand c a = .ok i) : cmdRsv c = 0#23 := by
  by_contra hrsv
  rw [decodeCommand, if_pos hrsv] at h
  cases h

/-- DIV1 is read in INIT only (R105). -/
theorem cmdOpc_of_decodeCommand {c a : Word} {i : Instr} (h : decodeCommand c a = .ok i) (hdiv : cmdDiv1 c = true) :
    cmdOpc c = 0x01#8 := by
  by_contra hopc
  rw [decodeCommand, if_neg (not_not.mpr (cmdRsv_of_decodeCommand h)), if_neg hopc, if_pos hdiv] at h
  cases h

/-- The decoder reads nothing else. -/
theorem legalCommand_of_decodeCommand {c a : Word} {i : Instr} (h : decodeCommand c a = .ok i) :
    LegalCommand c a i := by
  obtain ⟨hinit, hrelease, hdelay⟩ :=
    legalCommand_of_fields (a := a) (cmdRsv_of_decodeCommand h) (cmdOpc_of_decodeCommand h)
  rcases decodeCommand_cases h with ⟨rfl, hopc⟩ | ⟨rfl, hopc⟩ | ⟨u, w, rfl, hopc, operand⟩
  · exact hinit hopc
  · exact hrelease hopc
  · exact hdelay u w hopc operand

theorem decodeCommand_eq_ok_iff {c a : Word} {i : Instr} :
    decodeCommand c a = .ok i ↔ LegalCommand c a i :=
  ⟨legalCommand_of_decodeCommand, LegalCommand.decodes⟩

theorem LegalCommand.wellFormed {c a : Word} {i : Instr} (h : LegalCommand c a i) : i.wellFormed = true := by
  cases h with
  | init | release => rfl
  | delay u w _ operand => rw [wellFormed_delayInstr, operand]

/-- The encoder gives back a legal command word, and its ARG value too where the command uses it. -/
theorem LegalCommand.encodes {c a : Word} {i : Instr} (h : LegalCommand c a i) (hi : i ≠ .release) :
    encode i = .command c a := by
  cases h with
  | init div1 => exact encode_init a div1
  | release => exact absurd rfl hi
  | delay u w => exact encode_delayInstr u w a

theorem LegalCommand.word_of_release {c a : Word} (h : LegalCommand c a .release) : c = 0x00000002#32 := by
  generalize hi : Instr.release = i at h
  cases h with
  | init => cases hi
  | release => rfl
  | delay u w => exact absurd hi.symm (delayInstr_ne_release u w a)

/-! ## The illegal command words (R106) -/

/-- The six delay commands, one by one. -/
theorem exists_delay_iff {P : DelayUnit → OperandWidth → Prop} :
    (∃ u w, P u w) ↔ (P .ms .w8 ∨ P .ms .w16 ∨ P .ms .w32) ∨ P .us .w8 ∨ P .us .w16 ∨ P .us .w32 := by
  constructor
  · rintro ⟨u, w, h⟩
    cases u <;> cases w <;> simp [h]
  · rintro ((h | h | h) | h | h | h) <;> exact ⟨_, _, h⟩

/-- R103: the width W of a delay opcode, from its bits 1:0. -/
def opcodeWidth (opc : Byte) : OperandWidth :=
  if opc.toNat % 4 = 0 then .w8 else if opc.toNat % 4 = 1 then .w16 else .w32

theorem opcodeWidth_delayOpcode (u : DelayUnit) (w : OperandWidth) : opcodeWidth (delayOpcode u w) = w := by
  cases u <;> cases w <;> rfl

/-- The opcodes of R102 as numbers. -/
theorem mem_opcodes_iff (c : Word) : c.toNat % 256 ∈ [0x01, 0x02, 0x10, 0x11, 0x12, 0x18, 0x19, 0x1A] ↔
    cmdOpc c = 0x01#8 ∨ cmdOpc c = 0x02#8 ∨ ∃ u w, cmdOpc c = delayOpcode u w := by
  simp [exists_delay_iff, cmdOpc_eq_iff, delayOpcode, or_assoc]

/-- R106 (d) as numbers. -/
theorem operand_outOfRange_iff (c a : Word) :
    (c.toNat % 256 ∈ [0x10, 0x18] ∧ 256 ≤ a.toNat) ∨ (c.toNat % 256 ∈ [0x11, 0x19] ∧ 65536 ≤ a.toNat) ↔
      ∃ u w, cmdOpc c = delayOpcode u w ∧ w.admits a = false := by
  simp [exists_delay_iff, cmdOpc_eq_iff, delayOpcode, OperandWidth.admits]
  omega

/-- R106 turned around, field by field: RSV is 0, OPC is in the table, DIV1 is set in INIT only, and the operand of a delay
is in range. -/
theorem not_illegalWord_iff_fields (c a : Word) : ¬ illegalWord c a ↔
    cmdRsv c = 0#23 ∧ (cmdOpc c = 0x01#8 ∨ cmdOpc c = 0x02#8 ∨ ∃ u w, cmdOpc c = delayOpcode u w) ∧
    (cmdDiv1 c = true → cmdOpc c = 0x01#8) ∧ ∀ u w, cmdOpc c = delayOpcode u w → w.admits a = true := by
  have hinit : c.toNat % 256 = 0x01 ↔ cmdOpc c = 0x01#8 := (cmdOpc_eq_iff c 0x01#8).symm
  have hdiv : c.toNat / 256 % 2 = 1 ↔ cmdDiv1 c = true := by rw [cmdDiv1_eq, decide_eq_true_iff]
  rw [illegalWord, operand_outOfRange_iff, mem_opcodes_iff, ne_eq, hinit, hdiv]
  push Not
  simp only [cmdRsv_eq_zero_iff, ne_eq, Bool.not_eq_false]

/-- A command word that is not illegal with its ARG value is a command (R107). -/
theorem not_illegalWord_iff (c a : Word) : ¬ illegalWord c a ↔ ∃ i, LegalCommand c a i := by
  rw [not_illegalWord_iff_fields]
  constructor
  · rintro ⟨hrsv, hopc, hdiv, operand⟩
    obtain ⟨hinit, hrelease, hdelay⟩ := legalCommand_of_fields (a := a) hrsv hdiv
    rcases hopc with hopc | hopc | ⟨u, w, hopc⟩
    · exact ⟨_, hinit hopc⟩
    · exact ⟨_, hrelease hopc⟩
    · exact ⟨_, hdelay u w hopc (operand u w hopc)⟩
  · rintro ⟨i, h⟩
    cases h with
    | init div1 => simpa using fun u w h => absurd h.symm (delayOpcode_ne_init u w)
    | release => simpa using fun u w h => absurd h.symm (delayOpcode_ne_release u w)
    | delay u w _ operand =>
      refine ⟨by simp, .inr (.inr ⟨u, w, by simp⟩), by simp, fun u' w' h => ?_⟩
      rw [cmdOpc_commandWord] at h
      rwa [← opcodeWidth_delayOpcode u' w', ← h, opcodeWidth_delayOpcode]

/-! ## The statements about encoding -/

theorem decode_encode_delayInstr (u : DelayUnit) (w : OperandWidth) {n : Word} (h : w.admits n = true) :
    decode (encode (delayInstr u w n)) = .ok (delayInstr u w n) := by
  rw [encode_delayInstr]
  exact (LegalCommand.delay u w n h).decodes

/-- Settles O1: INIT and the delays encode to legal command words, which the decoder reads; RELEASE's word and the codes of
the micro-operations are read as they stand. -/
theorem decodeOfEncodeIsIdentity : Obligations.DecodeOfEncodeIsIdentity := by
  intro i h
  cases i with
  | init pclk div1 =>
    rw [encode_init]
    exact (LegalCommand.init div1 pclk).decodes
  | release => exact (LegalCommand.release 0#32).decodes
  | delayMs8 n => exact decode_encode_delayInstr .ms .w8 h
  | delayMs16 n => exact decode_encode_delayInstr .ms .w16 h
  | delayMs32 n => exact decode_encode_delayInstr .ms .w32 h
  | delayUs8 n => exact decode_encode_delayInstr .us .w8 h
  | delayUs16 n => exact decode_encode_delayInstr .us .w16 h
  | delayUs32 n => exact decode_encode_delayInstr .us .w32 h
  | _ => rfl

/-- Settles O2: a command word that decodes is legal, and a micro-state code is the one its micro-operation encodes to. -/
theorem encodeOfDecodeIsIdentity : Obligations.EncodeOfDecodeIsIdentity := by
  intro x i h
  cases x with
  | command c a =>
    have hlegal := legalCommand_of_decodeCommand h
    refine ⟨hlegal.wellFormed, hlegal.encodes, ?_⟩
    rintro rfl
    exact ⟨a, by rw [hlegal.word_of_release]⟩
  | micro u =>
    have hcode := decodeMicro_encode h
    refine ⟨wellFormed_of_encode_micro hcode, fun _ => hcode, ?_⟩
    rintro rfl
    cases hcode

/-- Settles O3: the words the decoder reads are the legal ones, and those are the ones R106 does not call illegal. -/
theorem decoderRefusesExactlyIllegalWords : Obligations.DecoderRefusesExactlyIllegalWords := by
  intro c a
  rw [← not_iff_not, not_illegalWord_iff]
  simp only [← decodeCommand_eq_ok_iff]
  cases decodeCommand c a with
  | ok i => simp
  | error e => simp

/-- Settles O4: the command lines by the encoder, the illegal inputs and the table words by the decoder. -/
theorem workedEncodings : Obligations.WorkedEncodings :=
  ⟨rfl, rfl, rfl, rfl, rfl, fun _ => rfl, fun _ => rfl, rfl, rfl, rfl, rfl, rfl, rfl, rfl⟩

end Sys2Proof

/-!
PROOFS. The lifecycle commands (40_lifecycle.md): the accept of INIT and RELEASE (R212), their runs to completion (R135,
R150), the rounding of the prescalers that INIT caches (R141), and the bounds that every step keeps of them and of a running
delay (R143, R191).
-/

namespace Sys2Proof.Machine

/-! ## Accept (R212) -/

section Accept
variable {s : State} {pclk : Word} {div1 : Bool}

theorem exec_init_accepted (hfault : s.fault = false) (hbusy : s.busy = false) (hlife : s.life = false)
    (hdomain : fEff s.params pclk div1 < 2 ^ 32) :
    exec (.init pclk div1) s = .next { s with
      life := true, busy := true, cop := 0x01#8, n := pclk, cdiv1 := div1, upc := Upc.enSet } := by
  show Host.Outcome.next (s.commandGate (State.acceptInit pclk div1)) = _
  rw [s.commandGate_idle _ hfault hbusy]
  rcases s.acceptInit_cases pclk div1 with ⟨howned, -⟩ | ⟨-, hout, -⟩ | ⟨-, -, haccept⟩
  · simp [hlife] at howned
  · omega
  · rw [haccept]

theorem exec_release_accepted (hfault : s.fault = false) (hbusy : s.busy = false) (hlife : s.life = true) :
    exec .release s = .next { s with busy := true, cop := 0x02#8, upc := Upc.rstSet } := by
  show Host.Outcome.next (s.commandGate State.acceptRelease) = _
  rw [s.commandGate_idle _ hfault hbusy]
  rcases s.acceptRelease_cases with ⟨-, haccept⟩ | ⟨hfree, -⟩
  · rw [haccept]
  · simp [hlife] at hfree

end Accept

/-- Settles O7: an idle machine without fault passes the command gate, and the lifecycle state is the one each asks for. -/
theorem lifecycleCommandsAccepted : Obligations.LifecycleCommandsAccepted :=
  fun _ hfault hbusy =>
    ⟨fun hlife _ _ hdomain => exec_init_accepted hfault hbusy hlife hdomain,
      fun hlife => exec_release_accepted hfault hbusy hlife⟩

/-! ## Rounding (R139 to R141) -/

section Rounding
variable {f : Nat}

theorem usPrescaler_roundsUp (h : f ≤ 2 * 4294967295) :
    f ≤ (usPrescaler f).toNat * 1000000 ∧ (0 < f → ((usPrescaler f).toNat - 1) * 1000000 < f) := by
  rw [usPrescaler_toNat h]
  omega

theorem usPrescaler_exact (h : f ≤ 2 * 4294967295) (hmul : f % 1000000 = 0) :
    (usPrescaler f).toNat * 1000000 = f := by
  rw [usPrescaler_toNat h]
  omega

theorem msPrescaler_roundsUp (h : f ≤ 2 * 4294967295) :
    f ≤ (msPrescaler f).toNat * 1000 ∧ (0 < f → ((msPrescaler f).toNat - 1) * 1000 < f) := by
  rw [msPrescaler_toNat h]
  omega

end Rounding

/-- Settles O28: CALC caches the rounded quotients of an f_eff that is small enough for them to fit their registers. -/
theorem prescalersRoundUp : Obligations.PrescalersRoundUp := by
  intro s t h
  obtain rfl := Host.Outcome.next.inj h
  have hf := fEff_le s.params s.n s.cdiv1
  obtain ⟨husLe, husLt⟩ := usPrescaler_roundsUp hf
  obtain ⟨hmsLe, hmsLt⟩ := msPrescaler_roundsUp hf
  exact ⟨husLe, hmsLe, fun hpos => ⟨husLt hpos, hmsLt hpos⟩, usPrescaler_exact hf⟩

/-! ## The turns of INIT and RELEASE (R213 to R218, R227) -/

section Turns
variable {s : State} {rest : List Event}

theorem step_enSet (hupc : s.upc = Upc.enSet) (hin : s.inputs = .seq :: rest) :
    step s = .next { s with
      rccEn := true, upc := Upc.rstSet, busTrace := .atomicSet .en :: s.busTrace, inputs := rest } :=
  step_seq (i := .uopEnSet) hin (by rw [hupc]; rfl)

theorem step_rstSet (hupc : s.upc = Upc.rstSet) (hin : s.inputs = .seq :: rest) :
    step s = .next { s with
      rccRst := true, tim := Timer.atReset s.params, upc := Upc.rstClr,
      busTrace := .atomicSet .rst :: s.busTrace, inputs := rest } :=
  step_seq (i := .uopRstSet) hin (by rw [hupc]; rfl)

theorem step_rstClr (hupc : s.upc = Upc.rstClr) (hin : s.inputs = .seq :: rest) :
    step s = .next (State.afterResetPulse { s with
      rccRst := false, busTrace := .atomicClear .rst :: s.busTrace, inputs := rest }) :=
  step_seq (i := .uopRstClr) hin (by rw [hupc]; rfl)

theorem step_enClr (hupc : s.upc = Upc.enClr) (hin : s.inputs = .seq :: rest) :
    step s = .next { s with
      rccEn := false, life := false, busy := false, upc := Upc.idle,
      busTrace := .atomicClear .en :: s.busTrace, inputs := rest } :=
  step_seq (i := .uopEnClr) hin (by rw [hupc]; rfl)

theorem exec_dirDown (hen : s.rccEn = true) (hrst : s.rccRst = false) :
    exec .uopDirDown s = .next { s with
      tim := s.tim.setCr1 true false, upc := Upc.calc,
      busTrace := .memWrite .cr1 (1#32 <<< s.params.dirBit.val) :: s.busTrace } := by
  show Host.Outcome.next { State.seqWrite .cr1 _ _ s with upc := Upc.calc } = _
  rw [s.seqWrite_on _ _ _ (s.timerReachable_on hen hrst), cr1Word_down]

theorem step_dirDown (hupc : s.upc = Upc.dirDown) (hen : s.rccEn = true) (hrst : s.rccRst = false)
    (hin : s.inputs = .seq :: rest) :
    step s = .next { s with
      tim := s.tim.setCr1 true false, upc := Upc.calc,
      busTrace := .memWrite .cr1 (1#32 <<< s.params.dirBit.val) :: s.busTrace, inputs := rest } :=
  (step_seq (i := .uopDirDown) hin (by rw [hupc]; rfl)).trans (exec_dirDown hen hrst)

theorem step_calc (hupc : s.upc = Upc.calc) (hin : s.inputs = .seq :: rest) :
    step s = .next { s with
      usPsc := usPrescaler (fEff s.params s.n s.cdiv1), msPsc := msPrescaler (fEff s.params s.n s.cdiv1),
      busy := false, upc := Upc.idle, inputs := rest } :=
  step_seq (i := .uopCalc) hin (by rw [hupc]; rfl)

/-- The reset pulse that INIT and RELEASE share leaves the timer at its reset values and out of reset (R133, R148). -/
theorem runFor_resetPulse (hupc : s.upc = Upc.rstSet) (hin : s.inputs = .seq :: .seq :: rest) :
    runFor 2 s = .next (State.afterResetPulse { s with
      rccRst := false, tim := Timer.atReset s.params, upc := Upc.rstClr,
      busTrace := .atomicClear .rst :: .atomicSet .rst :: s.busTrace, inputs := rest }) :=
  runFor_snoc (runFor_snoc rfl (step_rstSet hupc hin)) (step_rstClr rfl rfl)

/-- R227: the five turns of an accepted INIT. -/
theorem runFor_initTurns (hupc : s.upc = Upc.enSet) (hcop : s.cop = 0x01#8)
    (hin : s.inputs = List.replicate 5 .seq ++ rest) :
    runFor 5 s = .next { s with
      rccEn := true, rccRst := false, tim := (Timer.atReset s.params).setCr1 true false,
      usPsc := usPrescaler (fEff s.params s.n s.cdiv1), msPsc := msPrescaler (fEff s.params s.n s.cdiv1),
      busy := false, upc := Upc.idle,
      busTrace := .memWrite .cr1 (1#32 <<< s.params.dirBit.val) :: .atomicClear .rst :: .atomicSet .rst ::
        .atomicSet .en :: s.busTrace,
      inputs := rest } := by
  rw [runFor_next 4 (step_enSet hupc hin), runFor_add 2 (runFor_resetPulse rfl rfl), State.afterResetPulse, if_pos hcop]
  exact runFor_snoc (runFor_snoc rfl (step_dirDown rfl rfl rfl rfl)) (step_calc rfl rfl)

/-- R227: the three turns of an accepted RELEASE. -/
theorem runFor_releaseTurns (hupc : s.upc = Upc.rstSet) (hcop : s.cop = 0x02#8)
    (hin : s.inputs = List.replicate 3 .seq ++ rest) :
    runFor 3 s = .next { s with
      rccEn := false, rccRst := false, tim := Timer.atReset s.params, life := false, busy := false, upc := Upc.idle,
      busTrace := .atomicClear .en :: .atomicClear .rst :: .atomicSet .rst :: s.busTrace, inputs := rest } := by
  refine runFor_snoc (runFor_resetPulse hupc hin) ?_
  rw [State.afterResetPulse, hcop]
  exact step_enClr rfl rfl

end Turns

theorem hostLine_init (pclk : Word) (div1 : Bool) :
    hostLine (.init pclk div1) = [wrArg pclk, wrCmd (commandWord div1 0x01#8)] := by
  cases div1 <;> rfl

/-- The host line of an acceptable INIT leaves its first micro-operation to SEQ (R110, R212). -/
theorem runFor_initLine {pclk : Word} {div1 : Bool} {s : State} {rest : List Event}
    (hfault : s.fault = false) (hbusy : s.busy = false) (hlife : s.life = false)
    (hdomain : fEff s.params pclk div1 < 2 ^ 32) (hin : s.inputs = hostLine (.init pclk div1) ++ rest) :
    runFor 2 s = .next { s with
      arg := pclk, life := true, busy := true, cop := 0x01#8, n := pclk, cdiv1 := div1, upc := Upc.enSet,
      inputs := rest } := by
  rw [hostLine_init] at hin
  refine runFor_snoc (runFor_snoc rfl (step_wrArg hin)) ?_
  exact Eq.trans (step_wrCmd rfl (LegalCommand.init div1 pclk).decodes)
    (exec_init_accepted hfault hbusy hlife hdomain)

/-- Settles O36: the host line latches the operand and accepts INIT; its five turns leave what R135 says. -/
theorem initRunsToCompletion : Obligations.InitRunsToCompletion := by
  intro pclk div1 s rest hfault hbusy hlife hdomain hin
  have hf := fEff_le s.params pclk div1
  rw [List.append_assoc] at hin
  refine ⟨_, (runFor_add 5 (runFor_initLine hfault hbusy hlife hdomain hin)).trans (runFor_initTurns rfl rfl rfl), ?_⟩
  exact ⟨rfl, hfault, rfl, rfl, rfl, rfl, rfl, rfl, usPrescaler_toNat hf, msPrescaler_toNat hf, rfl⟩

/-- Settles O37: the host line is the CMD write that accepts RELEASE; its three turns leave what R150 says. -/
theorem releaseRunsToCompletion : Obligations.ReleaseRunsToCompletion := by
  intro s rest hfault hbusy hlife hin
  rw [runFor_next 3 ((step_wrCmd hin (LegalCommand.release s.arg).decodes).trans
      (exec_release_accepted hfault hbusy hlife)),
    runFor_releaseTurns rfl rfl rfl]
  exact ⟨_, rfl, rfl, hfault, rfl, rfl, rfl, rfl, rfl, rfl, rfl, rfl, rfl⟩

/-! ## The bounds of the prescalers and of a running delay (R143, R191) -/

/-- The parts of the state that the bounds speak of are kept. -/
structure KeepsBounded (s t : State) : Prop where
  usPsc : t.usPsc = s.usPsc
  msPsc : t.msPsc = s.msPsc
  upc : t.upc = s.upc
  cop : t.cop = s.cop
  n : t.n = s.n
  cdiv1 : t.cdiv1 = s.cdiv1
  params : t.params = s.params
  p : t.p = s.p
  reps : t.reps = s.reps

section Bounds
variable {s t : State} {e : Event} {c : Word}

theorem KeepsBounded.refl (s : State) : KeepsBounded s s := by constructor <;> rfl

theorem PrescalerInv.of_keeps (h : PrescalerInv s) (keeps : KeepsBounded s t) : PrescalerInv t := by
  obtain ⟨hus, hms, hupc, hcop, hn, hcdiv1, hparams, hp, hreps⟩ := keeps
  obtain ⟨husBound, hmsBound, hdomain, hdelay, hsplit⟩ := h
  constructor
  · rwa [hus]
  · rwa [hms]
  · rwa [State.initRunning, hupc, hcop, hparams, hn, hcdiv1]
  · rwa [hupc, hp]
  · rwa [hupc, hreps, hp]

/-! A micro-state belongs to INIT, to a delay or to neither (R227), and each has its own part of the bounds. -/

theorem mem_delayStates_of_repetition : ∀ {u : Byte}, u ∈ repetitionStates → u ∈ delayStates := by decide

theorem State.not_initRunning_of_delay (h : s.upc ∈ delayStates) : ¬ s.initRunning := by
  have hnotInit : ∀ u ∈ delayStates, u ∉ [Upc.enSet, Upc.dirDown, Upc.calc] ∧ u ∉ [Upc.rstSet, Upc.rstClr] := by decide
  obtain ⟨hinit, hpulse⟩ := hnotInit _ h
  exact fun hrun => hrun.elim hinit fun ⟨hmem, _⟩ => hpulse hmem

theorem PrescalerInv.of_init (hus : t.usPsc.toNat ≤ 4295) (hms : t.msPsc.toNat ≤ 4294968) (hrun : t.initRunning)
    (hdomain : fEff t.params t.n t.cdiv1 < 2 ^ 32) : PrescalerInv t where
  us_bound := hus
  ms_bound := hms
  init_domain _ := hdomain
  delay_bound h := absurd hrun (State.not_initRunning_of_delay h)
  reps_split h := absurd hrun (State.not_initRunning_of_delay (mem_delayStates_of_repetition h))

theorem PrescalerInv.of_delay (hus : t.usPsc.toNat ≤ 4295) (hms : t.msPsc.toNat ≤ 4294968) (hrun : t.upc ∈ delayStates)
    (hp : t.p.toNat ≤ 4294968)
    (hsplit : t.upc ∈ repetitionStates → t.reps = splitReps t.p ∧ t.reps.toNat ≤ 66) : PrescalerInv t where
  us_bound := hus
  ms_bound := hms
  init_domain h := absurd h (State.not_initRunning_of_delay hrun)
  delay_bound _ := hp
  reps_split := hsplit

theorem PrescalerInv.of_neither (hus : t.usPsc.toNat ≤ 4295) (hms : t.msPsc.toNat ≤ 4294968) (hinit : ¬ t.initRunning)
    (hdelay : t.upc ∉ delayStates) : PrescalerInv t where
  us_bound := hus
  ms_bound := hms
  init_domain h := absurd h hinit
  delay_bound h := absurd h hdelay
  reps_split h := absurd (mem_delayStates_of_repetition h) hdelay

/-- IDLE, FAULT and EN_CLR belong to neither. -/
theorem PrescalerInv.of_outside (hus : t.usPsc.toNat ≤ 4295) (hms : t.msPsc.toNat ≤ 4294968)
    (hupc : t.upc ∈ [Upc.idle, Upc.fault, Upc.enClr]) : PrescalerInv t := by
  have houtside : ∀ u ∈ [Upc.idle, Upc.fault, Upc.enClr],
      u ∉ [Upc.enSet, Upc.dirDown, Upc.calc] ∧ u ∉ [Upc.rstSet, Upc.rstClr] ∧ u ∉ delayStates := by decide
  obtain ⟨hinit, hpulse, hdelay⟩ := houtside _ hupc
  exact .of_neither hus hms (fun hrun => hrun.elim hinit fun ⟨hmem, _⟩ => hpulse hmem) hdelay

/-- RELEASE's reset pulse belongs to neither. -/
theorem PrescalerInv.of_releasePulse (hus : t.usPsc.toNat ≤ 4295) (hms : t.msPsc.toNat ≤ 4294968)
    (hupc : t.upc ∈ [Upc.rstSet, Upc.rstClr]) (hcop : t.cop = 0x02#8) : PrescalerInv t := by
  have hpulse : ∀ u ∈ [Upc.rstSet, Upc.rstClr], u ∉ [Upc.enSet, Upc.dirDown, Upc.calc] ∧ u ∉ delayStates := by decide
  obtain ⟨hinit, hdelay⟩ := hpulse _ hupc
  exact .of_neither hus hms (fun hrun => hrun.elim hinit fun ⟨_, hone⟩ => by simp [hcop] at hone) hdelay

theorem PrescalerInv.goto_init {u : Byte} (h : PrescalerInv s) (hrun : s.initRunning)
    (hnext : u ∈ [Upc.enSet, Upc.dirDown, Upc.calc] ∨ (u ∈ [Upc.rstSet, Upc.rstClr] ∧ s.cop = 0x01#8)) :
    PrescalerInv { s with upc := u } :=
  .of_init h.us_bound h.ms_bound hnext (h.init_domain hrun)

theorem PrescalerInv.goto_repetition {u : Byte} (h : PrescalerInv s) (hrun : s.upc ∈ repetitionStates)
    (hnext : u ∈ repetitionStates) : PrescalerInv { s with upc := u } :=
  .of_delay h.us_bound h.ms_bound (mem_delayStates_of_repetition hnext)
    (h.delay_bound (mem_delayStates_of_repetition hrun)) (fun _ => h.reps_split hrun)

/-- R160: the prescaler a delay latches. -/
theorem PrescalerInv.prescalerOf_le (h : PrescalerInv s) (u : DelayUnit) : (s.prescalerOf u).toNat ≤ 4294968 := by
  cases u with
  | ms => exact h.ms_bound
  | us => exact h.us_bound.trans (by decide)

theorem splitReps_le {p : Word} (h : p.toNat ≤ 4294968) : (splitReps p).toNat ≤ 66 := by
  rw [splitReps_toNat]
  omega

/-- R143: what CALC caches for an f_eff in the domain. -/
theorem prescalers_le {f : Nat} (h : f < 2 ^ 32) :
    (usPrescaler f).toNat ≤ 4295 ∧ (msPrescaler f).toNat ≤ 4294968 := by
  rw [usPrescaler_toNat (by omega), msPrescaler_toNat (by omega)]
  omega

/-- R212: an accept latches an operand in its domain, a bounded prescaler or nothing of the kind. -/
theorem State.issueCommand_keeps_prescalerInv (hpre : PrescalerInv s) (h : s.issueCommand c = .next t) :
    PrescalerInv t := by
  have hus := hpre.us_bound
  have hms := hpre.ms_bound
  obtain ⟨t', h', hcase⟩ := s.issueCommand_next c
  obtain rfl := Host.Outcome.next.inj (h.symm.trans h')
  rcases hcase with ⟨-, rfl⟩ | ⟨-, -, rfl⟩ | ⟨-, -, _, rfl⟩ | ⟨-, -, -, -, hdomain, rfl⟩ | ⟨-, -, -, -, rfl⟩ |
    ⟨-, -, -, u, _, -, rfl⟩
  · exact hpre
  · exact .of_outside hus hms (by decide : Upc.fault ∈ _)
  · exact .of_outside hus hms (by decide : Upc.fault ∈ _)
  · exact .of_init hus hms (.inl (by decide : Upc.enSet ∈ _)) hdomain
  · exact .of_releasePulse hus hms (by decide : Upc.rstSet ∈ _) rfl
  · exact .of_delay hus hms (by decide : Upc.chunk ∈ _) (hpre.prescalerOf_le u)
      (fun h => absurd h (by decide : Upc.chunk ∉ _))

/-- R225: CEN_CLR stays inside the delay or ends it, since REP has not passed REPS. -/
theorem PrescalerInv.afterRepetition (h : PrescalerInv s) (hmem : s.upc ∈ repetitionStates)
    (hrep : s.rep.toNat ≤ s.reps.toNat) : PrescalerInv s.afterRepetition := by
  rcases s.afterRepetition_cases with ⟨-, e⟩ | ⟨-, -, e⟩ | ⟨-, -, e⟩ | ⟨hpast, -⟩
  · rw [e]
    exact h.goto_repetition hmem (by decide)
  · rw [e]
    exact .of_outside h.us_bound h.ms_bound (by decide : Upc.idle ∈ _)
  · rw [e]
    exact .of_delay h.us_bound h.ms_bound (by decide : Upc.chunk ∈ _)
      (h.delay_bound (mem_delayStates_of_repetition hmem)) (fun hchunk => absurd hchunk (by decide : Upc.chunk ∉ _))
  · omega

/-- R215: RST_CLR goes on with the command whose pulse it ends. -/
theorem PrescalerInv.afterResetPulse (h : PrescalerInv s) (hupc : s.upc = Upc.rstClr)
    (hcop : s.cop = 0x01#8 ∨ s.cop = 0x02#8) : PrescalerInv s.afterResetPulse := by
  rcases s.afterResetPulse_cases with ⟨hinit, e⟩ | ⟨-, e⟩ | ⟨hnotInit, hnotRelease, -⟩
  · rw [e]
    exact h.goto_init (.inr ⟨by rw [hupc]; decide, hinit⟩) (.inl (by decide))
  · rw [e]
    exact .of_outside h.us_bound h.ms_bound (by decide : Upc.enClr ∈ _)
  · exact absurd hcop (not_or.mpr ⟨hnotInit, hnotRelease⟩)

/-- R213 to R226: INIT carries its operand to CALC, which caches bounded prescalers; a delay carries its prescaler, and
PSC_WR splits it. -/
theorem State.seqTurn_keeps_prescalerInv (hcontrol : ControlInv s) (hpre : PrescalerInv s) (h : s.seqTurn = .next t) :
    PrescalerInv t := by
  have hus := hpre.us_bound
  have hms := hpre.ms_bound
  cases State.seqTurn_next h
  case uopIdle _ leaves => exact leaves ▸ hpre
  case uopFault _ leaves => exact leaves ▸ hpre
  case uopEnSet code leaves =>
    have hmem : s.upc ∈ [Upc.enSet, Upc.dirDown, Upc.calc] := by rw [code]; decide
    obtain ⟨hcop, -⟩ := hcontrol.init_states hmem
    exact (hpre.goto_init (u := Upc.rstSet) (.inl hmem) (.inr ⟨by decide, hcop⟩)).of_keeps
      (leaves ▸ by constructor <;> rfl)
  case uopRstSet code leaves =>
    have hmem : s.upc ∈ [Upc.rstSet, Upc.rstClr] := by rw [code]; decide
    subst leaves
    obtain ⟨hcop | hcop, -⟩ := hcontrol.pulse_states hmem
    · exact (hpre.goto_init (u := Upc.rstClr) (.inr ⟨hmem, hcop⟩) (.inr ⟨by decide, hcop⟩)).of_keeps
        (by constructor <;> rfl)
    · exact .of_releasePulse hus hms (by decide : Upc.rstClr ∈ _) hcop
  case uopRstClr code leaves =>
    obtain ⟨hcop, -⟩ := hcontrol.pulse_states (by rw [code]; decide)
    rw [leaves]
    exact (hpre.of_keeps (by constructor <;> rfl)).afterResetPulse code hcop
  case uopEnClr _ leaves => exact leaves ▸ .of_outside hus hms (by decide : Upc.idle ∈ _)
  case uopDirDown code leaves =>
    exact (hpre.goto_init (u := Upc.calc) (.inl (by rw [code]; decide)) (.inl (by decide))).of_keeps
      (leaves ▸ by constructor <;> rfl)
  case uopCalc code leaves =>
    obtain ⟨husCalc, hmsCalc⟩ := prescalers_le (hpre.init_domain (.inl (by rw [code]; decide)))
    exact leaves ▸ .of_outside husCalc hmsCalc (by decide : Upc.idle ∈ _)
  case uopChunk code leaves =>
    exact leaves ▸ .of_delay hus hms (by decide : Upc.pscWr ∈ _) (hpre.delay_bound (by rw [code]; decide))
      (fun h => absurd h (by decide : Upc.pscWr ∉ _))
  case uopPscWr code leaves =>
    have hp := hpre.delay_bound (by rw [code]; decide)
    exact leaves ▸ .of_delay hus hms (by decide : Upc.uifClr ∈ _) hp (fun _ => ⟨rfl, splitReps_le hp⟩)
  case uopUifClr code leaves | uopCntWr code leaves | uopCenSet code leaves =>
    have hmem : s.upc ∈ repetitionStates := by rw [code]; decide
    have hnext : t.upc ∈ repetitionStates := by simp [leaves, repetitionStates]
    exact (hpre.goto_repetition hmem hnext).of_keeps (leaves ▸ by constructor <;> rfl)
  case uopUifPoll code leaves =>
    have hmem : s.upc ∈ repetitionStates := by rw [code]; decide
    have hnext : (if s.pollUif then Upc.cenClr else Upc.uifPoll) ∈ repetitionStates := by split <;> decide
    exact (hpre.goto_repetition hmem hnext).of_keeps (leaves ▸ by constructor <;> rfl)
  case uopCenClr code leaves =>
    have hmem : s.upc ∈ repetitionStates := by rw [code]; decide
    have hrep := hcontrol.repetition hmem
    obtain ⟨hcount, -⟩ := State.countRepetition_rep_of_lt
      (s.seqWrite .cr1 (cr1Word s.params true false) (Timer.setCr1 true false)) hrep
    rw [leaves]
    refine (hpre.of_keeps (by constructor <;> rfl)).afterRepetition hmem ?_
    rw [hcount]
    exact hrep

theorem RccUse.keepsBounded (h : RccUse s t) : KeepsBounded s t := by
  obtain ⟨_, _, _, rfl, -⟩ := h
  constructor <;> rfl

theorem State.writeTimerReg_keepsBounded (s : State) (r : TimReg) (v : Word) : KeepsBounded s (s.writeTimerReg r v) := by
  obtain ⟨_, _, heq, -⟩ := s.writeTimerReg_eq r v
  rw [heq]
  constructor <;> rfl

theorem State.timTurn_keepsBounded (h : s.timTurn = .next t) : KeepsBounded s t := by
  rcases State.timTurn_next h with ⟨-, rfl⟩ | ⟨-, -, rfl⟩
  · exact .refl _
  · constructor <;> rfl

theorem State.afterFetch_keepsBounded (s : State) : KeepsBounded s s.afterFetch := by
  obtain ⟨_, _, h⟩ := s.afterFetch_eq
  rw [h]
  constructor <;> rfl

theorem ControlInv.afterFetch (h : ControlInv s) : ControlInv s.afterFetch := by
  obtain ⟨_, _, heq⟩ := s.afterFetch_eq
  rw [heq]
  exact { h with }

theorem act_keeps_prescalerInv (hcontrol : ControlInv s) (hpre : PrescalerInv s) (h : act e s = .next t) :
    PrescalerInv t := by
  cases act_next h with
  | command _ _ issues => exact State.issueCommand_keeps_prescalerInv hpre issues
  | seq _ turn => exact State.seqTurn_keeps_prescalerInv hcontrol hpre turn
  | engReset _ leaves => exact leaves ▸ .of_outside (Nat.zero_le _) (Nat.zero_le _) (by decide : Upc.idle ∈ _)
  | sysReset _ leaves => exact leaves ▸ .of_outside (Nat.zero_le _) (Nat.zero_le _) (by decide : Upc.idle ∈ _)
  | read _ _ _ _ leaves => exact hpre.of_keeps (leaves ▸ by constructor <;> rfl)
  | argument _ _ _ leaves => exact hpre.of_keeps (leaves ▸ by constructor <;> rfl)
  | timerWrite r v _ _ _ leaves => exact hpre.of_keeps (leaves ▸ s.writeTimerReg_keepsBounded r v)
  | ignored _ _ leaves => exact leaves ▸ hpre
  | rccWrite _ _ use => exact hpre.of_keeps use.keepsBounded
  | race _ _ _ leaves => exact hpre.of_keeps (leaves ▸ by constructor <;> rfl)
  | tim _ turn => exact hpre.of_keeps (State.timTurn_keepsBounded turn)
  | env _ leaves => exact leaves ▸ hpre
  | clkRun _ _ leaves => exact hpre.of_keeps (leaves ▸ by constructor <;> rfl)

end Bounds

/-- Settles O44: taking the event off keeps both invariants, and of the events only a CMD write, SEQ's turn and the resets
write what the bounds speak of. -/
theorem stepKeepsPrescalerInv : Obligations.StepKeepsPrescalerInv := by
  intro s t ⟨hcontrol, _⟩ hpre h
  exact act_keeps_prescalerInv hcontrol.afterFetch (hpre.of_keeps s.afterFetch_keepsBounded) h

end Sys2Proof.Machine

/-!
PROOFS. The delay commands (41_delay.md): their accept (R160), the chunks of a delay (R167, R168), the countdown of a
repetition (R317), their runs to completion (R190 to R196), that a one-chunk delay never ends early (R171), and the ways
out of a running delay.
-/

namespace Sys2Proof.Machine

/-! ## Accept (R160) -/

section Accept
variable {s : State} {u : DelayUnit} {w : OperandWidth} {n : Word}

theorem exec_delay_accepted (hfault : s.fault = false) (hbusy : s.busy = false) (hlife : s.life = true)
    (hfits : w.admits n = true) :
    exec (delayInstr u w n) s = .next { s with
      busy := true, cop := delayOpcode u w, n := n, p := s.prescalerOf u, upc := Upc.chunk } := by
  rw [exec_delayInstr, s.commandGate_idle _ hfault hbusy]
  rcases s.acceptDelay_cases u w (delayOpcode u w) n with ⟨hwide, -⟩ | ⟨-, hfree, -⟩ | ⟨-, -, haccept⟩
  · simp [hfits] at hwide
  · simp [hlife] at hfree
  · rw [haccept]

theorem hostLine_delayInstr (u : DelayUnit) (w : OperandWidth) (n : Word) :
    hostLine (delayInstr u w n) = [wrArg n, wrCmd (commandWord false (delayOpcode u w))] := by
  cases u <;> cases w <;> rfl

/-- The host line of an acceptable delay leaves its first CHUNK to SEQ (R110, R212). -/
theorem runFor_delayLine {rest : List Event} (hfault : s.fault = false) (hbusy : s.busy = false)
    (hlife : s.life = true) (hfits : w.admits n = true) (hin : s.inputs = hostLine (delayInstr u w n) ++ rest) :
    runFor 2 s = .next { s with
      arg := n, busy := true, cop := delayOpcode u w, n := n, p := s.prescalerOf u, upc := Upc.chunk,
      inputs := rest } := by
  rw [hostLine_delayInstr] at hin
  refine runFor_snoc (runFor_snoc rfl (step_wrArg hin)) ?_
  exact Eq.trans (step_wrCmd rfl (LegalCommand.delay u w n hfits).decodes)
    (exec_delay_accepted hfault hbusy hlife hfits)

end Accept

/-- Settles O8: an idle machine without fault passes the command gate, and the accept finds the timer owned and the operand
in range. -/
theorem delayAccepted : Obligations.DelayAccepted := by
  intro u w n s hfault hbusy hlife hfits
  rw [exec_delay_accepted hfault hbusy hlife hfits]
  cases u <;> rfl

/-! ## The chunks of a delay (R167, R168) -/

section Chunks
variable {n : Nat}

theorem chunkCount_of_le (h : n ≤ 65535) : chunkCount n = 1 := by
  unfold chunkCount ceilDiv
  split <;> omega

theorem chunkCount_of_gt (h : 65535 < n) : chunkCount n = chunkCount (n - 65535) + 1 := by
  unfold chunkCount ceilDiv
  split <;> split <;> omega

theorem chunkCount_pos (n : Nat) : 1 ≤ chunkCount n := by
  unfold chunkCount ceilDiv
  split <;> omega

theorem chunkDurations_of_le (h : n ≤ 65535) : chunkDurations n = [n] := by
  simp [chunkDurations, chunkCount_of_le h]

theorem chunkDurations_of_gt (h : 65535 < n) : chunkDurations n = 65535 :: chunkDurations (n - 65535) := by
  obtain ⟨c, hc⟩ := Nat.exists_eq_add_of_le' (chunkCount_pos (n - 65535))
  have hrest : n - 65535 * (c + 1) = n - 65535 - 65535 * c := by omega
  simp [chunkDurations, chunkCount_of_gt h, hc, List.replicate_succ, hrest]

theorem length_chunkDurations (n : Nat) : (chunkDurations n).length = chunkCount n := by
  have := chunkCount_pos n
  simp [chunkDurations]
  omega

/-- R168: the last chunk is what the full ones before it leave. -/
theorem lastChunk_bounds (n : Nat) :
    65535 * (chunkCount n - 1) ≤ n ∧ n - 65535 * (chunkCount n - 1) ≤ 65535 ∧
    (0 < n → 1 ≤ n - 65535 * (chunkCount n - 1)) := by
  unfold chunkCount ceilDiv
  split <;> omega

theorem sum_chunkDurations (n : Nat) : (chunkDurations n).sum = n := by
  obtain ⟨hle, -, -⟩ := lastChunk_bounds n
  simp only [chunkDurations, List.sum_append, List.sum_replicate, List.sum_singleton, smul_eq_mul]
  omega

theorem zero_mem_chunkDurations (n : Nat) : 0 ∈ chunkDurations n ↔ n = 0 := by
  obtain ⟨-, -, hpos⟩ := lastChunk_bounds n
  constructor
  · intro hmem
    rcases List.mem_append.mp hmem with hfull | hlast
    · exact absurd (List.eq_of_mem_replicate hfull) (by decide)
    · have := List.mem_singleton.mp hlast
      omega
  · rintro rfl
    decide

theorem chunkIsLast_of_le {n : Word} (h : n.toNat ≤ 65535) : chunkIsLast n = true := by
  rw [chunkIsLast_eq, decide_eq_true h]

theorem chunkIsLast_of_gt {n : Word} (h : 65535 < n.toNat) : chunkIsLast n = false := by
  rw [chunkIsLast_eq, decide_eq_false (by omega)]

theorem chunkRemainder_of_le {n : Word} (h : n.toNat ≤ 65535) : chunkRemainder n = 0#32 := by
  unfold chunkRemainder
  rw [chunkIsLast_of_le h, if_pos rfl]

theorem chunkDuration_of_le {n : Word} (h : n.toNat ≤ 65535) : chunkDuration n = n.extractLsb' 0 16 := by
  unfold chunkDuration
  rw [chunkIsLast_of_le h, if_pos rfl]

/-- One CHUNK puts its duration first, and the list ends with the last chunk (R167). -/
theorem chunkList_succ (fuel : Nat) (s : State) :
    chunkList (fuel + 1) s = (chunkDuration s.n).toNat ::
      (if chunkIsLast s.n then [] else chunkList fuel { s with
        dur := chunkDuration s.n, n := chunkRemainder s.n, last := chunkIsLast s.n, upc := Upc.pscWr }) := rfl

/-- CHUNK, one after another, produces the durations of R168. -/
theorem chunkList_eq_chunkDurations {fuel : Nat} {s : State} (h : chunkCount s.n.toNat ≤ fuel) :
    chunkList fuel s = chunkDurations s.n.toNat := by
  induction fuel generalizing s with
  | zero => exact absurd (chunkCount_pos s.n.toNat) (by omega)
  | succ fuel ih =>
    rw [chunkList_succ, chunkDuration_toNat]
    by_cases hn : s.n.toNat ≤ 65535
    · rw [chunkIsLast_of_le hn, chunkDurations_of_le hn, min_eq_left hn]
      rfl
    · rw [not_le] at hn
      rw [chunkIsLast_of_gt hn, chunkDurations_of_gt hn, min_eq_right hn.le, ← chunkRemainder_toNat]
      rw [chunkCount_of_gt hn, ← chunkRemainder_toNat] at h
      exact congrArg (65535 :: ·) (ih (Nat.le_of_succ_le_succ h))

end Chunks

/-- Settles O31: CHUNK produces the durations of R168, which are the division of N into full chunks and a rest. -/
theorem chunksDecomposeDelay : Obligations.ChunksDecomposeDelay := by
  intro s fuel hfuel
  obtain ⟨-, hle, hpos⟩ := lastChunk_bounds s.n.toNat
  rw [chunkList_eq_chunkDurations hfuel]
  exact ⟨rfl, sum_chunkDurations _, fun hn => ⟨hpos hn, hle⟩, zero_mem_chunkDurations _⟩

/-! ## The ways out of a running delay (R171) -/

section Leaving
variable {s t : State} {c : Word}

/-- R225: of a delay's micro-operations only the last CEN_CLR leaves the delay's micro-states. -/
theorem State.seqTurn_leaves_delay (hcontrol : ControlInv s) (hmem : s.upc ∈ delayStates) (hout : t.upc ∉ delayStates)
    (h : s.seqTurn = .next t) :
    s.upc = Upc.cenClr ∧ s.last = true ∧ s.rep.toNat + 1 = s.reps.toNat ∧ t.busy = false := by
  cases State.seqTurn_next h
  case uopIdle code _ | uopEnSet code _ | uopRstSet code _ | uopRstClr code _ | uopEnClr code _ | uopDirDown code _ |
      uopCalc code _ | uopFault code _ =>
    exact absurd (code ▸ hmem) (by decide)
  case uopChunk _ leaves | uopPscWr _ leaves | uopUifClr _ leaves | uopCntWr _ leaves | uopCenSet _ leaves =>
    exact absurd (by simp [leaves, delayStates]) hout
  case uopUifPoll _ leaves =>
    have hstays : (if s.pollUif then Upc.cenClr else Upc.uifPoll) ∈ delayStates := by split <;> decide
    exact absurd (leaves ▸ hstays) hout
  case uopCenClr code leaves =>
    have hrep := hcontrol.repetition (by rw [code]; decide)
    obtain ⟨hcount, -⟩ := State.countRepetition_rep_of_lt
      (s.seqWrite .cr1 (cr1Word s.params true false) (Timer.setCr1 true false)) hrep
    rcases State.afterRepetition_cases
        (s.seqWrite .cr1 (cr1Word s.params true false) (Timer.setCr1 true false)).countRepetition with
      ⟨-, e⟩ | ⟨hends, hlast, e⟩ | ⟨-, -, e⟩ | ⟨hpast, -⟩
    · exact absurd (leaves ▸ e ▸ (by decide : Upc.uifClr ∈ delayStates)) hout
    · rw [hends] at hcount
      exact ⟨code, hlast, hcount.symm, by rw [leaves, e]⟩
    · exact absurd (leaves ▸ e ▸ (by decide : Upc.chunk ∈ delayStates)) hout
    · rw [hcount] at hpast
      exact absurd hrep (Nat.not_lt.mpr (Nat.lt_succ_iff.mp hpast))

/-- R253: a CMD write while a delay runs is CMD_WHILE_BUSY. -/
theorem State.issueCommand_in_delay (hcontrol : ControlInv s) (hmem : s.upc ∈ delayStates)
    (h : s.issueCommand c = .next t) : t = s.raiseFault .cmdWhileBusy := by
  have hfault : s.fault = false :=
    Bool.eq_false_iff.mpr fun hf => absurd (hcontrol.fault_iff.mp hf ▸ hmem) (by decide)
  have hbusy : s.busy = true :=
    Bool.not_eq_false _ ▸ fun hb => absurd (hcontrol.idle_iff.mp ⟨hb, hfault⟩ ▸ hmem) (by decide)
  have hgate : s.issueCommand c = .next (s.raiseFault .cmdWhileBusy) := by
    rcases s.issueCommand_cases c with ⟨-, -, e⟩ | ⟨-, -, e⟩ | ⟨_, _, -, -, -, e⟩ | ⟨-, e⟩ <;>
      rw [e, s.commandGate_busy _ hfault hbusy]
  exact Host.Outcome.next.inj (h.symm.trans hgate)

end Leaving

/-- Settles O52: only SEQ's turn, a CMD write and the resets write upc; CEN_CLR is the only micro-operation that leaves the
delay, and a CMD write raises CMD_WHILE_BUSY. -/
theorem delayEndsOnlyAfterLastRepetition : Obligations.DelayEndsOnlyAfterLastRepetition := by
  intro e s t ⟨hcontrol, _⟩ h hmem hout
  have hstays (keeps : KeepsBounded s t) : t.upc ∈ delayStates := keeps.upc ▸ hmem
  cases act_next h with
  | command c host issues =>
    obtain rfl := State.issueCommand_in_delay hcontrol hmem issues
    exact .inr (.inl ⟨c, host, rfl, rfl⟩)
  | seq event turn =>
    obtain ⟨hupc, hlast, hrep, hbusy⟩ := State.seqTurn_leaves_delay hcontrol hmem hout turn
    exact .inl ⟨event, hupc, hlast, hrep, hbusy⟩
  | engReset event _ => exact .inr (.inr (.inl event))
  | sysReset event _ => exact .inr (.inr (.inr event))
  | read _ _ _ _ leaves => exact absurd (hstays (leaves ▸ by constructor <;> rfl)) hout
  | argument _ _ _ leaves => exact absurd (hstays (leaves ▸ by constructor <;> rfl)) hout
  | timerWrite r v _ _ _ leaves => exact absurd (hstays (leaves ▸ s.writeTimerReg_keepsBounded r v)) hout
  | ignored _ _ leaves => exact absurd (hstays (leaves ▸ .refl s)) hout
  | rccWrite _ _ use => exact absurd (hstays use.keepsBounded) hout
  | race _ _ _ leaves => exact absurd (hstays (leaves ▸ by constructor <;> rfl)) hout
  | tim _ turn => exact absurd (hstays (State.timTurn_keepsBounded turn)) hout
  | env _ leaves => exact absurd (hstays (leaves ▸ .refl s)) hout
  | clkRun _ _ leaves => exact absurd (hstays (leaves ▸ by constructor <;> rfl)) hout

/-! ## The countdown of a repetition (R267, R270, R317) -/

/-- A countdown in progress that updates at its cycle number `left` from here (R317). -/
structure Timer.Counts (p : Params) (left : Nat) (t : Timer) : Prop where
  flag : t.uif = false
  phase : t.pcnt.toNat < divisor p t.pscSh
  cycles : left + t.pcnt.toNat = expiryTicks p t.cnt * divisor p t.pscSh

section Countdown
variable {p : Params} {t : Timer} {left k : Nat}

theorem expiryTicks_pos (p : Params) (n : Half) : 1 ≤ expiryTicks p n := by
  unfold expiryTicks
  split <;> omega

/-- R270: a countdown with one tick left updates at it. -/
theorem Timer.tick_uif_of_last (h : expiryTicks p t.cnt = 1) : (t.tick p).uif = true := by
  unfold expiryTicks at h
  unfold Timer.tick
  split at h
  · have hcnt : t.cnt = 1#16 ∨ t.cnt = 0#16 := by bv_omega
    rcases hcnt with hcnt | hcnt <;> simp_all
  · have hcnt : t.cnt = 0#16 := by bv_omega
    simp_all

/-- R270: with more ticks left a tick counts one down. -/
theorem Timer.tick_of_more (h : 2 ≤ expiryTicks p t.cnt) :
    t.tick p = { t with cnt := t.cnt - 1#16 } ∧ expiryTicks p (t.cnt - 1#16) + 1 = expiryTicks p t.cnt := by
  unfold expiryTicks at h ⊢
  unfold Timer.tick
  cases hzero : p.updateOnZero with
  | true =>
    simp only [hzero, if_true] at h ⊢
    have h1 : t.cnt ≠ 1#16 := by rintro e; simp [e] at h
    have h0 : t.cnt ≠ 0#16 := by rintro e; simp [e] at h
    have hsub : (t.cnt - 1#16).toNat = t.cnt.toNat - 1 := by bv_omega
    rw [if_neg h1, if_neg h0, hsub]
    exact ⟨rfl, by omega⟩
  | false =>
    simp only [hzero, Bool.false_eq_true, if_false] at h ⊢
    have h0 : t.cnt ≠ 0#16 := by rintro e; simp [e] at h
    have hsub : (t.cnt - 1#16).toNat = t.cnt.toNat - 1 := by bv_omega
    rw [if_neg h0, hsub]
    exact ⟨rfl, by omega⟩

/-- R267: below D - 1 a cycle counts PCNT up. -/
theorem Timer.cycle_of_phase (h : t.pcnt.toNat + 1 < divisor p t.pscSh) :
    t.cycle p = { t with pcnt := t.pcnt + 1#17 } ∧ (t.pcnt + 1#17).toNat = t.pcnt.toNat + 1 := by
  have := divisor_le p t.pscSh
  exact ⟨by rw [Timer.cycle, if_pos h], by bv_omega⟩

/-- R267: from D - 1 a cycle is a tick with PCNT back at 0. -/
theorem Timer.cycle_of_wrap (h : ¬ t.pcnt.toNat + 1 < divisor p t.pscSh) :
    t.cycle p = Timer.tick p { t with pcnt := 0#17 } := by
  rw [Timer.cycle, if_neg h]

theorem Timer.Counts.pos (h : t.Counts p left) : 1 ≤ left := by
  obtain ⟨-, hphase, hcycles⟩ := h
  have := Nat.mul_le_mul_right (divisor p t.pscSh) (expiryTicks_pos p t.cnt)
  omega

/-- R317: the last cycle of a countdown sets the flag. -/
theorem Timer.Counts.cycle_last (h : t.Counts p 1) : (t.cycle p).uif = true := by
  obtain ⟨-, hphase, hcycles⟩ := h
  have hone := Nat.mul_le_mul_right (divisor p t.pscSh) (expiryTicks_pos p t.cnt)
  have hlast : ¬ t.pcnt.toNat + 1 < divisor p t.pscSh := by omega
  rw [Timer.cycle_of_wrap hlast]
  refine Timer.tick_uif_of_last (le_antisymm ?_ (expiryTicks_pos p t.cnt))
  by_contra hmore
  have hticks : 2 ≤ expiryTicks p t.cnt := not_le.mp hmore
  have htwo := Nat.mul_le_mul_right (divisor p t.pscSh) hticks
  omega

/-- R317: every earlier cycle brings the countdown one cycle on. -/
theorem Timer.Counts.cycle_of_more (h : t.Counts p (left + 1)) (hmore : 1 ≤ left) : (t.cycle p).Counts p left := by
  obtain ⟨hflag, hphase, hcycles⟩ := h
  by_cases hwrap : t.pcnt.toNat + 1 < divisor p t.pscSh
  · obtain ⟨hcycle, hpcnt⟩ := Timer.cycle_of_phase hwrap
    rw [hcycle]
    exact ⟨hflag, hpcnt.symm ▸ hwrap, show left + (t.pcnt + 1#17).toNat = _ by rw [hpcnt, ← hcycles]; omega⟩
  · have hticks : 2 ≤ expiryTicks p t.cnt := by
      by_contra hone
      have : expiryTicks p t.cnt = 1 := le_antisymm (by omega) (expiryTicks_pos p t.cnt)
      rw [this] at hcycles
      omega
    obtain ⟨htick, hless⟩ := Timer.tick_of_more (t := { t with pcnt := 0#17 }) hticks
    rw [Timer.cycle_of_wrap hwrap, htick]
    refine ⟨hflag, divisor_pos p t.pscSh, ?_⟩
    show left + 0 = expiryTicks p (t.cnt - 1#16) * divisor p t.pscSh
    have hmul : expiryTicks p t.cnt * divisor p t.pscSh =
        expiryTicks p (t.cnt - 1#16) * divisor p t.pscSh + divisor p t.pscSh := by
      rw [← Nat.succ_mul]
      exact congrArg (· * _) hless.symm
    omega

/-- What any number of input cycles keeps, before the update and after it: CEN, DIR, PSC and a flag that is set; PSC_SH
stays or takes PSC (R267 to R269). -/
structure Timer.Cycled (t t' : Timer) : Prop where
  cen : t'.cen = t.cen
  dir : t'.dir = t.dir
  psc : t'.psc = t.psc
  flag : t.uif = true → t'.uif = true
  shadow : t'.pscSh = t.pscSh ∨ t'.pscSh = t.psc

theorem Timer.Cycled.trans {t' t'' : Timer} (h : t.Cycled t') (h' : t'.Cycled t'') : t.Cycled t'' where
  cen := h'.cen.trans h.cen
  dir := h'.dir.trans h.dir
  psc := h'.psc.trans h.psc
  flag hset := h'.flag (h.flag hset)
  shadow := by
    rcases h'.shadow with e | e
    · rw [e]; exact h.shadow
    · rw [e]; exact .inr h.psc

theorem Timer.tick_pscSh_cases (p : Params) (t : Timer) : (t.tick p).pscSh = t.pscSh ∨ (t.tick p).pscSh = t.psc := by
  cases hp : p.pscPreload with
  | false => exact .inl (Timer.tick_pscSh p t hp)
  | true =>
    unfold Timer.tick
    repeat' split
    all_goals simp [hp]

theorem Timer.cycle_cycled (p : Params) (t : Timer) : t.Cycled (t.cycle p) := by
  obtain ⟨hcen, hdir, hpsc, -, hflag⟩ := Timer.cycle_frame p t
  refine ⟨hcen, hdir, hpsc, hflag, ?_⟩
  by_cases hwrap : t.pcnt.toNat + 1 < divisor p t.pscSh
  · obtain ⟨hcycle, -⟩ := Timer.cycle_of_phase hwrap
    rw [hcycle]
    exact .inl rfl
  · rw [Timer.cycle_of_wrap hwrap]
    exact Timer.tick_pscSh_cases p { t with pcnt := 0#17 }

theorem Timer.iterate_cycle_cycled (p : Params) (k : Nat) (t : Timer) : t.Cycled ((Timer.cycle p)^[k] t) := by
  induction k generalizing t with
  | zero => exact ⟨rfl, rfl, rfl, id, .inl rfl⟩
  | succ k ih => exact (Timer.cycle_cycled p t).trans (ih _)

/-- R317: a countdown that gets the cycles it has left ends with the flag set. -/
theorem Timer.Counts.iterate_cycle_uif (h : t.Counts p left) (hk : left ≤ k) : ((Timer.cycle p)^[k] t).uif = true := by
  induction k generalizing t left with
  | zero => exact absurd h.pos (by omega)
  | succ k ih =>
    obtain ⟨left, rfl⟩ := Nat.exists_eq_add_of_le' h.pos
    rcases Nat.eq_zero_or_pos left with rfl | hmore
    · exact (Timer.iterate_cycle_cycled p k _).flag h.cycle_last
    · exact ih (h.cycle_of_more hmore) (by omega)

/-- R317: a start with the flag clear updates after more than (T - 1) * D cycles and at most T * D, whatever the phase. -/
theorem Timer.startAt_counts (p : Params) (d : Nat) (hflag : t.uif = false) :
    ∃ left, (t.startAt p d).Counts p left ∧ left ≤ expiryTicks p t.cnt * divisor p t.pscSh ∧
      (expiryTicks p t.cnt - 1) * divisor p t.pscSh < left := by
  have hphase := Timer.startAt_pcnt_lt p d t
  obtain ⟨m, hm⟩ := Nat.exists_eq_add_of_le' (expiryTicks_pos p t.cnt)
  have hmul : (m + 1) * divisor p t.pscSh = m * divisor p t.pscSh + divisor p t.pscSh := Nat.succ_mul ..
  refine ⟨expiryTicks p t.cnt * divisor p t.pscSh - (t.startAt p d).pcnt.toNat, ⟨hflag, hphase, ?_⟩, by omega, ?_⟩
  · show _ = expiryTicks p t.cnt * divisor p t.pscSh
    rw [hm, hmul]
    omega
  · rw [hm, hmul, Nat.add_sub_cancel]
    omega

end Countdown

/-! ## The turns of a delay (R219 to R225) -/

section Turns
variable {s : State} {rest : List Event}

theorem exec_pscWr (hon : s.timerReachable = true) :
    exec .uopPscWr s = .next { s with
      tim := s.tim.setPsc s.params (splitPreg s.p), reps := splitReps s.p, preg := splitPreg s.p, rep := 0#17,
      upc := Upc.uifClr, busTrace := .memWrite .psc ((splitPreg s.p).setWidth 32) :: s.busTrace } := by
  have hwrite := s.seqWrite_on .psc ((splitPreg s.p).setWidth 32) (Timer.setPsc s.params (splitPreg s.p)) hon
  exact congrArg (fun t : State => Host.Outcome.next { t with
    reps := splitReps s.p, preg := splitPreg s.p, rep := 0#17, upc := Upc.uifClr }) hwrite

theorem exec_uifClr (hon : s.timerReachable = true) :
    exec .uopUifClr s = .next { s with
      tim := s.tim.clearUif, upc := Upc.cntWr, busTrace := .memWrite .sr (uifClearWord s.params) :: s.busTrace } := by
  have hwrite := s.seqWrite_on .sr (uifClearWord s.params) Timer.clearUif hon
  exact congrArg (fun t : State => Host.Outcome.next { t with upc := Upc.cntWr }) hwrite

theorem exec_cntWr (hon : s.timerReachable = true) :
    exec .uopCntWr s = .next { s with
      tim := s.tim.setCnt s.dur, upc := Upc.cenSet, busTrace := .memWrite .cnt (s.dur.setWidth 32) :: s.busTrace } := by
  have hwrite := s.seqWrite_on .cnt (s.dur.setWidth 32) (Timer.setCnt s.dur) hon
  exact congrArg (fun t : State => Host.Outcome.next { t with upc := Upc.cenSet }) hwrite

theorem State.drawPhase_on (hon : s.timerReachable = true) :
    s.drawPhase = { s with tim := s.tim.startAt s.params (Config.draw s.draws), draws := s.draws + 1 } := by
  unfold State.drawPhase
  rw [if_pos hon, if_pos hon]

theorem exec_cenSet (hon : s.timerReachable = true) :
    exec .uopCenSet s = .next { s with
      tim := (s.tim.setCr1 true true).startAt s.params (Config.draw s.draws), upc := Upc.uifPoll, draws := s.draws + 1,
      busTrace := .memWrite .cr1 (cr1Word s.params true true) :: s.busTrace } := by
  have hwrite := s.seqWrite_on .cr1 (cr1Word s.params true true) (Timer.setCr1 true true) hon
  exact congrArg (fun t : State => Host.Outcome.next { t with upc := Upc.uifPoll })
    ((congrArg State.drawPhase hwrite).trans (State.drawPhase_on hon))

theorem exec_uifPoll (hon : s.timerReachable = true) :
    exec .uopUifPoll s = .next { s with
      upc := if s.tim.uif then Upc.cenClr else Upc.uifPoll, busTrace := .memRead .sr :: s.busTrace } := by
  have hpoll : s.pollUif = s.tim.uif := by rw [State.pollUif, hon, Bool.true_and]
  rw [← hpoll]
  rfl

theorem State.countRepetition_of_lt (h : s.rep.toNat < s.reps.toNat) :
    s.countRepetition = { s with rep := s.rep + 1#17 } := by
  obtain ⟨hcount, hdraws⟩ := s.countRepetition_rep_of_lt h
  have hrep : s.countRepetition.rep = s.rep + 1#17 := by
    have := s.reps.isLt
    bv_omega
  calc s.countRepetition
      = { s with rep := s.countRepetition.rep, draws := s.countRepetition.draws } := rfl
    _ = { s with rep := s.rep + 1#17 } := by rw [hrep, hdraws]

theorem exec_cenClr (hon : s.timerReachable = true) (hrep : s.rep.toNat < s.reps.toNat) :
    exec .uopCenClr s = .next (State.afterRepetition { s with
      tim := s.tim.setCr1 true false, rep := s.rep + 1#17,
      busTrace := .memWrite .cr1 (cr1Word s.params true false) :: s.busTrace }) := by
  have hwrite := s.seqWrite_on .cr1 (cr1Word s.params true false) (Timer.setCr1 true false) hon
  exact congrArg (fun t : State => Host.Outcome.next t.afterRepetition)
    ((congrArg State.countRepetition hwrite).trans (State.countRepetition_of_lt hrep))

/-! The steps of SEQ's placed turns. -/

theorem step_chunk (hupc : s.upc = Upc.chunk) (hin : s.inputs = .seq :: rest) :
    step s = .next { s with
      dur := chunkDuration s.n, n := chunkRemainder s.n, last := chunkIsLast s.n, upc := Upc.pscWr, inputs := rest } :=
  step_seq (i := .uopChunk) hin (by rw [hupc]; rfl)

theorem step_pscWr (hupc : s.upc = Upc.pscWr) (hon : s.timerReachable = true) (hin : s.inputs = .seq :: rest) :
    step s = .next { s with
      tim := s.tim.setPsc s.params (splitPreg s.p), reps := splitReps s.p, preg := splitPreg s.p, rep := 0#17,
      upc := Upc.uifClr, busTrace := .memWrite .psc ((splitPreg s.p).setWidth 32) :: s.busTrace, inputs := rest } :=
  (step_seq (i := .uopPscWr) hin (by rw [hupc]; rfl)).trans (exec_pscWr hon)

theorem step_uifClr (hupc : s.upc = Upc.uifClr) (hon : s.timerReachable = true) (hin : s.inputs = .seq :: rest) :
    step s = .next { s with
      tim := s.tim.clearUif, upc := Upc.cntWr, busTrace := .memWrite .sr (uifClearWord s.params) :: s.busTrace,
      inputs := rest } :=
  (step_seq (i := .uopUifClr) hin (by rw [hupc]; rfl)).trans (exec_uifClr hon)

theorem step_cntWr (hupc : s.upc = Upc.cntWr) (hon : s.timerReachable = true) (hin : s.inputs = .seq :: rest) :
    step s = .next { s with
      tim := s.tim.setCnt s.dur, upc := Upc.cenSet, busTrace := .memWrite .cnt (s.dur.setWidth 32) :: s.busTrace,
      inputs := rest } :=
  (step_seq (i := .uopCntWr) hin (by rw [hupc]; rfl)).trans (exec_cntWr hon)

theorem step_cenSet (hupc : s.upc = Upc.cenSet) (hon : s.timerReachable = true) (hin : s.inputs = .seq :: rest) :
    step s = .next { s with
      tim := (s.tim.setCr1 true true).startAt s.params (Config.draw s.draws), upc := Upc.uifPoll, draws := s.draws + 1,
      busTrace := .memWrite .cr1 (cr1Word s.params true true) :: s.busTrace, inputs := rest } :=
  (step_seq (i := .uopCenSet) hin (by rw [hupc]; rfl)).trans (exec_cenSet hon)

theorem step_uifPoll (hupc : s.upc = Upc.uifPoll) (hon : s.timerReachable = true) (hin : s.inputs = .seq :: rest) :
    step s = .next { s with
      upc := if s.tim.uif then Upc.cenClr else Upc.uifPoll, busTrace := .memRead .sr :: s.busTrace,
      inputs := rest } :=
  (step_seq (i := .uopUifPoll) hin (by rw [hupc]; rfl)).trans (exec_uifPoll hon)

theorem step_cenClr (hupc : s.upc = Upc.cenClr) (hon : s.timerReachable = true) (hrep : s.rep.toNat < s.reps.toNat)
    (hin : s.inputs = .seq :: rest) :
    step s = .next (State.afterRepetition { s with
      tim := s.tim.setCr1 true false, rep := s.rep + 1#17,
      busTrace := .memWrite .cr1 (cr1Word s.params true false) :: s.busTrace, inputs := rest }) :=
  (step_seq (i := .uopCenClr) hin (by rw [hupc]; rfl)).trans (exec_cenClr hon hrep)

theorem State.counting_of (hclk : s.clkRun = true) (hon : s.timerReachable = true) (hcen : s.tim.cen = true) :
    s.counting = true := by
  obtain ⟨hen, hrst⟩ := (State.timerReachable_iff s).mp hon
  simp [State.counting, hclk, hen, hrst, hcen]

/-- R271: the turns of a TIM that counts down are input cycles. -/
theorem runFor_cycles {k : Nat} (hcount : s.counting = true) (hdir : s.tim.dir = true)
    (hin : s.inputs = List.replicate k .tim ++ rest) :
    runFor k s = .next { s with tim := (Timer.cycle s.params)^[k] s.tim, inputs := rest } := by
  induction k generalizing s with
  | zero =>
    rw [runFor_zero, ← show s.inputs = rest from hin]
    rfl
  | succ k ih =>
    obtain ⟨hcen, hdir', -⟩ := Timer.cycle_frame s.params s.tim
    rw [runFor_next k (step_tim hin hcount hdir)]
    exact ih (by rw [← hcount, State.counting, hcen]; rfl) (hdir'.trans hdir) rfl

/-- The runs of two lists of turns, one after the other. -/
theorem runFor_append {s' : State} {es : List Event} (fs : List Event) (h : runFor es.length s = .next s') :
    runFor (es ++ fs).length s = runFor fs.length s' := by
  rw [List.length_append, runFor_add _ h]

end Turns

/-! ## A repetition (R190 to R196) -/

/-- The timer when a repetition of `s` has started its countdown: flag clear, DUR loaded, enabled, at a free phase. -/
def State.countdown (s : State) : Timer :=
  ((s.tim.clearUif.setCnt s.dur).setCr1 true true).startAt s.params (Config.draw s.draws)

/-- What repetitions leave of the timer `t`: stopped, counting down, the flag set, PSC as it was and PSC_SH there or at
PSC. -/
structure Timer.RanDown (t t' : Timer) : Prop where
  stopped : t'.cen = false
  down : t'.dir = true
  flag : t'.uif = true
  psc : t'.psc = t.psc
  shadow : t'.pscSh = t.pscSh ∨ t'.pscSh = t.psc

theorem Timer.RanDown.trans {t t' t'' : Timer} (h : t.RanDown t') (h' : t'.RanDown t'') : t.RanDown t'' where
  stopped := h'.stopped
  down := h'.down
  flag := h'.flag
  psc := h'.psc.trans h.psc
  shadow := by
    rcases h'.shadow with e | e
    · rw [e]; exact h.shadow
    · rw [e]; exact .inr h.psc

section Repetition
variable {s : State} {rest : List Event} {k : Nat} {ks : List Nat}

/-- R317: enough cycles bring a repetition's countdown to its update, and CEN_CLR then stops the timer. -/
theorem State.countdown_ranDown (hk : enoughCycles s.params s.dur.toNat s.tim.pscSh k) :
    ((Timer.cycle s.params)^[k] s.countdown).uif = true ∧
    s.tim.RanDown (((Timer.cycle s.params)^[k] s.countdown).setCr1 true false) := by
  obtain ⟨left, hcounts, hle, -⟩ := Timer.startAt_counts (t := (s.tim.clearUif.setCnt s.dur).setCr1 true true) s.params
    (Config.draw s.draws) rfl
  have hdur : BitVec.ofNat 16 s.dur.toNat = s.dur := by rw [BitVec.ofNat_toNat, BitVec.setWidth_eq]
  rw [enoughCycles, hdur] at hk
  have hflag := hcounts.iterate_cycle_uif (hle.trans hk)
  obtain ⟨-, -, hpsc, -, hshadow⟩ := Timer.iterate_cycle_cycled s.params k s.countdown
  exact ⟨hflag, rfl, rfl, hflag, hpsc, hshadow⟩

/-- R193: UIF_CLR, CNT_WR and CEN_SET start the countdown. -/
theorem runFor_startRepetition (hupc : s.upc = Upc.uifClr) (hon : s.timerReachable = true)
    (hin : s.inputs = List.replicate 3 .seq ++ rest) :
    runFor 3 s = .next { s with
      tim := s.countdown, upc := Upc.uifPoll, draws := s.draws + 1,
      busTrace := .memWrite .cr1 (cr1Word s.params true true) :: .memWrite .cnt (s.dur.setWidth 32) ::
        .memWrite .sr (uifClearWord s.params) :: s.busTrace,
      inputs := rest } :=
  runFor_snoc (runFor_snoc (runFor_snoc rfl (step_uifClr hupc hon hin)) (step_cntWr rfl hon rfl))
    (step_cenSet rfl hon rfl)

/-- R194, R195: the poll that sees the flag, and CEN_CLR. -/
theorem runFor_endRepetition (hupc : s.upc = Upc.uifPoll) (hon : s.timerReachable = true) (hflag : s.tim.uif = true)
    (hrep : s.rep.toNat < s.reps.toNat) (hin : s.inputs = .seq :: .seq :: rest) :
    runFor 2 s = .next (State.afterRepetition { s with
      tim := s.tim.setCr1 true false, upc := Upc.cenClr, rep := s.rep + 1#17,
      busTrace := .memWrite .cr1 (cr1Word s.params true false) :: .memRead .sr :: s.busTrace, inputs := rest }) := by
  have hpoll := step_uifPoll hupc hon hin
  rw [hflag] at hpoll
  exact runFor_snoc (runFor_snoc rfl hpoll) (step_cenClr rfl hon hrep rfl)

/-- R271, R194: the cycles of a countdown that comes to its update, and the two turns that end it. -/
theorem runFor_countdown (hupc : s.upc = Upc.uifPoll) (hon : s.timerReachable = true) (hclk : s.clkRun = true)
    (hcen : s.tim.cen = true) (hdir : s.tim.dir = true) (hflag : ((Timer.cycle s.params)^[k] s.tim).uif = true)
    (hrep : s.rep.toNat < s.reps.toNat) (hin : s.inputs = List.replicate k .tim ++ ([.seq, .seq] ++ rest)) :
    runFor (List.replicate k Event.tim ++ [Event.seq, Event.seq]).length s = .next (State.afterRepetition { s with
      tim := ((Timer.cycle s.params)^[k] s.tim).setCr1 true false, upc := Upc.cenClr, rep := s.rep + 1#17,
      busTrace := .memWrite .cr1 (cr1Word s.params true false) :: .memRead .sr :: s.busTrace, inputs := rest }) := by
  have hcycles := runFor_cycles (State.counting_of hclk hon hcen) hdir hin
  rw [runFor_append (es := List.replicate k .tim) _ (by rw [List.length_replicate]; exact hcycles)]
  exact runFor_endRepetition hupc hon hflag hrep rfl

/-- R193: a repetition whose countdown gets enough cycles comes to its successor with REP counted. -/
theorem runFor_repetition (hupc : s.upc = Upc.uifClr) (hon : s.timerReachable = true) (hclk : s.clkRun = true)
    (hrep : s.rep.toNat < s.reps.toNat) (hk : enoughCycles s.params s.dur.toNat s.tim.pscSh k)
    (hin : s.inputs = repetitionTurns k ++ rest) :
    ∃ t' d tr, runFor (repetitionTurns k).length s = .next (State.afterRepetition { s with
        tim := t', upc := Upc.cenClr, rep := s.rep + 1#17, draws := d, busTrace := tr, inputs := rest }) ∧
      s.tim.RanDown t' ∧ tr.length = s.busTrace.length + 5 := by
  obtain ⟨hflag, hdown⟩ := State.countdown_ranDown hk
  simp only [repetitionTurns, List.append_assoc] at hin ⊢
  have hstart := runFor_startRepetition hupc hon hin
  have hrun := (runFor_append (es := List.replicate 3 .seq) _ hstart).trans
    (runFor_countdown rfl hon hclk rfl rfl hflag hrep rfl)
  exact ⟨_, _, _, hrun, hdown, rfl⟩

theorem State.afterRepetition_of_lt (h : s.rep.toNat < s.reps.toNat) :
    s.afterRepetition = { s with upc := Upc.uifClr } := by
  rw [State.afterRepetition, if_pos h]

theorem State.afterRepetition_of_last (h : s.rep = s.reps) (hlast : s.last = true) :
    s.afterRepetition = { s with upc := Upc.idle, busy := false } := by
  rw [State.afterRepetition, if_neg (by rw [h]; exact lt_irrefl _), if_pos h, if_pos hlast]

theorem State.afterRepetition_of_more (h : s.rep = s.reps) (hlast : s.last = false) :
    s.afterRepetition = { s with upc := Upc.chunk } := by
  rw [State.afterRepetition, if_neg (by rw [h]; exact lt_irrefl _), if_pos h, if_neg (Bool.eq_false_iff.mp hlast)]

/-- R196: the repetitions still to do, with enough cycles for each at PSC_SH and at PSC, come to the successor of the
last. -/
theorem runFor_repetitions (hne : ks ≠ []) (hupc : s.upc = Upc.uifClr) (hon : s.timerReachable = true)
    (hclk : s.clkRun = true) (hrep : s.rep.toNat + ks.length = s.reps.toNat)
    (hks : ∀ k ∈ ks, enoughCycles s.params s.dur.toNat s.tim.pscSh k ∧ enoughCycles s.params s.dur.toNat s.tim.psc k)
    (hin : s.inputs = ks.flatMap repetitionTurns ++ rest) :
    ∃ t' d tr, runFor (ks.flatMap repetitionTurns).length s = .next (State.afterRepetition { s with
        tim := t', upc := Upc.cenClr, rep := s.reps, draws := d, busTrace := tr, inputs := rest }) ∧
      s.tim.RanDown t' ∧ tr.length = s.busTrace.length + 5 * ks.length := by
  induction ks generalizing s with
  | nil => exact absurd rfl hne
  | cons k ks ih =>
    rw [List.flatMap_cons, List.append_assoc] at hin
    rw [List.length_cons] at hrep
    obtain ⟨⟨hk, -⟩, hrest⟩ := List.forall_mem_cons.mp hks
    obtain ⟨t₁, d₁, tr₁, hrun, hdown, hlen⟩ := runFor_repetition hupc hon hclk (by omega) hk hin
    have hcount : (s.rep + 1#17).toNat = s.rep.toNat + 1 := by
      have := s.reps.isLt
      bv_omega
    rw [List.flatMap_cons, runFor_append _ hrun]
    rcases eq_or_ne ks [] with rfl | hmore
    · have hlast : s.rep + 1#17 = s.reps := BitVec.eq_of_toNat_eq (hcount.trans hrep)
      rw [hlast]
      exact ⟨t₁, d₁, tr₁, rfl, hdown, hlen⟩
    · have hpos := List.length_pos_iff.mpr hmore
      rw [State.afterRepetition_of_lt (show (s.rep + 1#17).toNat < s.reps.toNat by omega)]
      have henough (k : Nat) (hk : k ∈ ks) : enoughCycles s.params s.dur.toNat t₁.pscSh k ∧
          enoughCycles s.params s.dur.toNat t₁.psc k := by
        obtain ⟨hshadow, hpsc⟩ := hrest k hk
        rw [hdown.psc]
        rcases hdown.shadow with e | e <;> rw [e]
        · exact ⟨hshadow, hpsc⟩
        · exact ⟨hpsc, hpsc⟩
      obtain ⟨t', d, tr, hruns, hdowns, hlens⟩ := ih (s := { s with
          tim := t₁, upc := Upc.uifClr, rep := s.rep + 1#17, draws := d₁, busTrace := tr₁, inputs := _ })
        hmore rfl hon hclk (show (s.rep + 1#17).toNat + ks.length = s.reps.toNat by omega) henough rfl
      refine ⟨t', d, tr, hruns, hdown.trans hdowns, ?_⟩
      rw [hlens, hlen, List.length_cons]
      omega

/-! ## A chunk and the chunks of a delay (R168, R190, R228) -/

theorem splitPreg_eq_ofNat (P : Word) : splitPreg P = BitVec.ofNat 16 (P.toNat % 65536) := by
  apply BitVec.eq_of_toNat_eq
  rw [splitPreg_toNat, BitVec.toNat_ofNat]
  omega

/-- R313: the input cycles `k` of a repetition are enough at the PSC value `v` and, with preload, at the shadow value `sh` too,
which the first countdown can still find. -/
def repetitionCycles (p : Params) (v sh : Half) (dur k : Nat) : Prop :=
  enoughCycles p dur v k ∧ (p.pscPreload = true → enoughCycles p dur sh k)

/-- R191: the chunk of duration `dur` has as many repetitions as the prescaler `P` asks for, each with enough cycles. -/
def chunkCycles (p : Params) (P : Word) (sh : Half) (dur : Nat) (ks : List Nat) : Prop :=
  ks.length = P.toNat / 65536 + 1 ∧ ∀ k ∈ ks, repetitionCycles p (splitPreg P) sh dur k

theorem chunkCycles.of_shadow {p : Params} {P : Word} {sh sh' : Half} {dur : Nat} (h : chunkCycles p P sh dur ks)
    (hsh : p.pscPreload = true → sh' = sh ∨ sh' = splitPreg P) : chunkCycles p P sh' dur ks := by
  obtain ⟨hlen, hks⟩ := h
  refine ⟨hlen, fun k hk => ?_⟩
  obtain ⟨hpreg, hshadow⟩ := hks k hk
  refine ⟨hpreg, fun hpre => ?_⟩
  rcases hsh hpre with rfl | rfl
  · exact hshadow hpre
  · exact hpreg

/-- R219, R220: CHUNK and PSC_WR. -/
theorem runFor_startChunk (hupc : s.upc = Upc.chunk) (hon : s.timerReachable = true)
    (hin : s.inputs = .seq :: .seq :: rest) :
    runFor 2 s = .next { s with
      dur := chunkDuration s.n, n := chunkRemainder s.n, last := chunkIsLast s.n,
      tim := s.tim.setPsc s.params (splitPreg s.p), reps := splitReps s.p, preg := splitPreg s.p, rep := 0#17,
      upc := Upc.uifClr, busTrace := .memWrite .psc ((splitPreg s.p).setWidth 32) :: s.busTrace, inputs := rest } :=
  runFor_snoc (runFor_snoc rfl (step_chunk hupc hin)) (step_pscWr rfl hon rfl)

/-- R190: CHUNK, PSC_WR and the repetitions with enough cycles come to the successor of the last repetition. -/
theorem runFor_chunkTurns (hupc : s.upc = Upc.chunk) (hon : s.timerReachable = true) (hclk : s.clkRun = true)
    (hks : chunkCycles s.params s.p s.tim.pscSh (chunkDuration s.n).toNat ks) (hin : s.inputs = chunkTurns ks ++ rest) :
    ∃ t' d tr, runFor (chunkTurns ks).length s = .next (State.afterRepetition { s with
        dur := chunkDuration s.n, n := chunkRemainder s.n, last := chunkIsLast s.n,
        reps := splitReps s.p, preg := splitPreg s.p, rep := splitReps s.p,
        tim := t', upc := Upc.cenClr, draws := d, busTrace := tr, inputs := rest }) ∧
      (s.tim.setPsc s.params (splitPreg s.p)).RanDown t' ∧ tr.length = s.busTrace.length + (1 + 5 * ks.length) := by
  obtain ⟨hlen, hcycles⟩ := hks
  rw [chunkTurns, List.append_assoc] at hin
  have hne : ks ≠ [] := List.ne_nil_of_length_pos (by omega)
  have hstart := runFor_startChunk hupc hon hin
  have henough (k : Nat) (hk : k ∈ ks) :
      enoughCycles s.params (chunkDuration s.n).toNat (s.tim.setPsc s.params (splitPreg s.p)).pscSh k ∧
      enoughCycles s.params (chunkDuration s.n).toNat (splitPreg s.p) k := by
    obtain ⟨hpreg, hshadow⟩ := hcycles k hk
    rw [Timer.setPsc_pscSh]
    split
    · exact ⟨hshadow ‹_›, hpreg⟩
    · exact ⟨hpreg, hpreg⟩
  obtain ⟨t', d, tr, hrun, hdown, htr⟩ := runFor_repetitions (s := { s with
      dur := chunkDuration s.n, n := chunkRemainder s.n, last := chunkIsLast s.n,
      tim := s.tim.setPsc s.params (splitPreg s.p), reps := splitReps s.p, preg := splitPreg s.p, rep := 0#17,
      upc := Upc.uifClr, busTrace := _, inputs := _ }) hne rfl hon hclk
    (show 0 + ks.length = (splitReps s.p).toNat by rw [splitReps_toNat, hlen, Nat.zero_add]) henough rfl
  refine ⟨t', d, tr, ?_, hdown, ?_⟩
  · rw [chunkTurns, runFor_append (es := [.seq, .seq]) _ hstart]
    exact hrun
  · rw [htr, List.length_cons]
    omega

/-- R168, R228: the chunks of a delay, each repetition with enough cycles, come to the end of the command. -/
theorem runFor_delayTurns {kss : List (List Nat)} (hupc : s.upc = Upc.chunk) (hon : s.timerReachable = true)
    (hclk : s.clkRun = true)
    (hkss : List.Forall₂ (chunkCycles s.params s.p s.tim.pscSh) (chunkDurations s.n.toNat) kss)
    (hin : s.inputs = delayTurns kss ++ rest) :
    ∃ dur t₀ t' d tr, runFor (delayTurns kss).length s = .next { s with
        dur := dur, n := 0#32, last := true, reps := splitReps s.p, preg := splitPreg s.p, rep := splitReps s.p,
        tim := t', upc := Upc.idle, busy := false, draws := d, busTrace := tr, inputs := rest } ∧
      (Timer.setPsc s.params (splitPreg s.p) t₀).RanDown t' ∧
      tr.length = s.busTrace.length + kss.length * (1 + 5 * (s.p.toNat / 65536 + 1)) := by
  induction kss generalizing s with
  | nil =>
    have := hkss.length_eq
    rw [length_chunkDurations] at this
    exact absurd (chunkCount_pos s.n.toNat) (by simp [this])
  | cons ks kss ih =>
    rw [delayTurns, List.flatMap_cons, List.append_assoc] at hin
    have hdur := chunkDuration_toNat s.n
    by_cases hn : s.n.toNat ≤ 65535
    · rw [chunkDurations_of_le hn] at hkss
      rw [min_eq_left hn] at hdur
      obtain ⟨hks, hnil⟩ := List.forall₂_cons.mp hkss
      obtain rfl := List.forall₂_nil_left_iff.mp hnil
      obtain ⟨t', d, tr, hrun, hdown, htr⟩ := runFor_chunkTurns hupc hon hclk (hdur.symm ▸ hks) hin
      rw [State.afterRepetition_of_last rfl (chunkIsLast_of_le hn), chunkRemainder_of_le hn,
        chunkIsLast_of_le hn] at hrun
      refine ⟨chunkDuration s.n, s.tim, t', d, tr, ?_, hdown, ?_⟩
      · rw [delayTurns, List.flatMap_cons, runFor_append _ hrun]
        rfl
      · obtain ⟨hlen, -⟩ := hks
        rw [htr, hlen, List.length_singleton, one_mul]
    · rw [not_le] at hn
      rw [chunkDurations_of_gt hn] at hkss
      rw [min_eq_right hn.le] at hdur
      obtain ⟨hks, hmore⟩ := List.forall₂_cons.mp hkss
      obtain ⟨t₁, d₁, tr₁, hrun, hdown, htr₁⟩ := runFor_chunkTurns hupc hon hclk (hdur.symm ▸ hks) hin
      rw [State.afterRepetition_of_more rfl (chunkIsLast_of_gt hn)] at hrun
      have hshadow (hpre : s.params.pscPreload = true) : t₁.pscSh = s.tim.pscSh ∨ t₁.pscSh = splitPreg s.p := by
        simpa [hpre] using hdown.shadow
      obtain ⟨dur, t₀, t', d, tr, hruns, hdowns, htr⟩ := ih (s := { s with
          dur := chunkDuration s.n, n := chunkRemainder s.n, last := chunkIsLast s.n, reps := splitReps s.p,
          preg := splitPreg s.p, rep := splitReps s.p, tim := t₁, upc := Upc.chunk, draws := d₁, busTrace := tr₁,
          inputs := _ }) rfl hon hclk
        (by rw [chunkRemainder_toNat]; exact hmore.imp fun _ _ h => h.of_shadow hshadow) rfl
      refine ⟨dur, t₀, t', d, tr, ?_, hdowns, ?_⟩
      · rw [delayTurns, List.flatMap_cons, runFor_append _ hrun]
        exact hruns
      · obtain ⟨hlen, -⟩ := hks
        calc tr.length = tr₁.length + kss.length * (1 + 5 * (s.p.toNat / 65536 + 1)) := htr
          _ = s.busTrace.length + (ks :: kss).length * (1 + 5 * (s.p.toNat / 65536 + 1)) := by
            rw [htr₁, hlen, List.length_cons]
            ring

end Repetition

/-- Settles O38: the host line leaves the delay at its first CHUNK, and the chunks, each of them with enough cycles for its
repetitions, come to the end of the command. -/
theorem delayRunsToCompletion : Obligations.DelayRunsToCompletion := by
  intro u w n s kss rest hfault hbusy hlife hclk hen hrst hfits hkss hin
  rw [List.append_assoc] at hin
  have hcycles : List.Forall₂ (chunkCycles s.params (s.prescalerOf u) s.tim.pscSh) (chunkDurations n.toNat) kss := by
    refine hkss.imp fun dur ks ⟨hlen, hks⟩ => ⟨hlen, fun k hk => ?_⟩
    rw [repetitionCycles, splitPreg_eq_ofNat]
    exact hks k hk
  have hline := runFor_delayLine hfault hbusy hlife hfits hin
  obtain ⟨dur, t₀, t', d, tr, hrun, ⟨hcen, hdir, huif, hpsc, -⟩, htr⟩ := runFor_delayTurns (s := { s with
      arg := n, busy := true, cop := delayOpcode u w, n := n, p := s.prescalerOf u, upc := Upc.chunk,
      inputs := delayTurns kss ++ rest }) rfl (s.timerReachable_on hen hrst) hclk hcycles rfl
  refine ⟨_, (runFor_add _ hline).trans hrun, rfl, hfault, rfl, rfl, hlife, rfl, rfl, hcen, hdir, huif, ?_, hen, hrst,
    rfl, rfl, splitReps_toNat _, rfl, ?_⟩
  · exact (congrArg BitVec.toNat hpsc).trans (splitPreg_toNat _)
  · rw [← length_chunkDurations, hkss.length_eq]
    exact htr

/-! ## A one-chunk delay does not end early (R171, R317) -/

/-- Where a one-chunk delay with duration `dur` and divisor value `v` stands while its countdown still needs more than
`budget` cycles, or has not started. -/
inductive BeforeExpiry (dur v : Half) (budget : Nat) (s : State) : Prop
  | chunk (code : s.upc = Upc.chunk) (stopped : s.tim.cen = false) (duration : chunkDuration s.n = dur)
      (preg : splitPreg s.p = v)
  | pscWr (code : s.upc = Upc.pscWr) (stopped : s.tim.cen = false) (duration : s.dur = dur) (preg : splitPreg s.p = v)
  | uifClr (code : s.upc = Upc.uifClr) (stopped : s.tim.cen = false) (duration : s.dur = dur) (shadow : s.tim.pscSh = v)
  | cntWr (code : s.upc = Upc.cntWr) (stopped : s.tim.cen = false) (duration : s.dur = dur) (shadow : s.tim.pscSh = v)
      (flag : s.tim.uif = false)
  | cenSet (code : s.upc = Upc.cenSet) (stopped : s.tim.cen = false) (count : s.tim.cnt = dur) (shadow : s.tim.pscSh = v)
      (flag : s.tim.uif = false)
  | uifPoll (code : s.upc = Upc.uifPoll) (enabled : s.tim.cen = true) (down : s.tim.dir = true) (left : Nat)
      (counts : s.tim.Counts s.params left) (more : budget < left)

/-- A running one-chunk delay whose countdown cannot update within `budget` further cycles. -/
structure DelayPending (dur v : Half) (budget : Nat) (s : State) : Prop where
  busy : s.busy = true
  fault : s.fault = false
  reachable : s.timerReachable = true
  preload : s.params.pscPreload = false
  within : budget ≤ (expiryTicks s.params dur - 1) * divisor s.params v
  place : BeforeExpiry dur v budget s

section Pending
variable {dur v : Half} {budget : Nat} {s : State} {rest : List Event}

/-- Fewer cycles to come, another event placed next, or another word read by the host change nothing of it. -/
theorem DelayPending.mono {fewer : Nat} (h : DelayPending dur v budget s) (hle : fewer ≤ budget) (es : List Event)
    (data : Option Word) : DelayPending dur v fewer { s with inputs := es, hostData := data } where
  busy := h.busy
  fault := h.fault
  reachable := h.reachable
  preload := h.preload
  within := hle.trans h.within
  place := by
    cases h.place with
    | chunk code stopped duration preg => exact .chunk code stopped duration preg
    | pscWr code stopped duration preg => exact .pscWr code stopped duration preg
    | uifClr code stopped duration shadow => exact .uifClr code stopped duration shadow
    | cntWr code stopped duration shadow flag => exact .cntWr code stopped duration shadow flag
    | cenSet code stopped count shadow flag => exact .cenSet code stopped count shadow flag
    | uifPoll code enabled down left counts more =>
      exact .uifPoll code enabled down left counts (Nat.lt_of_le_of_lt hle more)

/-- SEQ's turn goes on to the countdown, and its start leaves more cycles to go than the budget has (R317); a poll finds
the flag clear. -/
theorem DelayPending.step_seq (h : DelayPending dur v budget s) (hin : s.inputs = .seq :: rest) :
    ∃ t, step s = .next t ∧ t.inputs = rest ∧ DelayPending dur v budget t := by
  obtain ⟨hbusy, hfault, hon, hpre, hwithin, hplace⟩ := h
  cases hplace with
  | chunk code stopped duration preg =>
    exact ⟨_, step_chunk code hin, rfl, hbusy, hfault, hon, hpre, hwithin, .pscWr rfl stopped duration preg⟩
  | pscWr code stopped duration preg =>
    have hshadow : (s.tim.setPsc s.params (splitPreg s.p)).pscSh = v := by simpa [hpre] using preg
    exact ⟨_, step_pscWr code hon hin, rfl, hbusy, hfault, hon, hpre, hwithin, .uifClr rfl stopped duration hshadow⟩
  | uifClr code stopped duration shadow =>
    exact ⟨_, step_uifClr code hon hin, rfl, hbusy, hfault, hon, hpre, hwithin, .cntWr rfl stopped duration shadow rfl⟩
  | cntWr code stopped duration shadow flag =>
    exact ⟨_, step_cntWr code hon hin, rfl, hbusy, hfault, hon, hpre, hwithin, .cenSet rfl stopped duration shadow flag⟩
  | cenSet code stopped count shadow flag =>
    obtain ⟨left, hcounts, -, hmore⟩ := Timer.startAt_counts (t := s.tim.setCr1 true true) s.params
      (Config.draw s.draws) flag
    rw [Timer.setCr1_cnt, Timer.setCr1_pscSh, count, shadow] at hmore
    exact ⟨_, step_cenSet code hon hin, rfl, hbusy, hfault, hon, hpre, hwithin,
      .uifPoll rfl rfl rfl left hcounts (Nat.lt_of_le_of_lt hwithin hmore)⟩
  | uifPoll code enabled down left counts more =>
    have hpoll := step_uifPoll code hon hin
    rw [counts.flag] at hpoll
    exact ⟨_, hpoll, rfl, hbusy, hfault, hon, hpre, hwithin, .uifPoll rfl enabled down left counts more⟩

/-- TIM's turn counts only in UIF_POLL, where it takes one cycle off what is left and off the budget. -/
theorem DelayPending.step_tim (h : DelayPending dur v (budget + 1) s) (hin : s.inputs = .tim :: rest) :
    ∃ t, step s = .next t ∧ t.inputs = rest ∧ DelayPending dur v budget t := by
  cases hcount : s.counting with
  | false => exact ⟨_, step_tim_idle hin hcount, rfl, h.mono (Nat.le_succ budget) rest s.hostData⟩
  | true =>
    have hcen : s.tim.cen = true := (Bool.and_eq_true_iff.mp hcount).2
    obtain ⟨hbusy, hfault, hon, hpre, hwithin, hplace⟩ := h
    cases hplace with
    | uifPoll code enabled down left counts more =>
      obtain ⟨left, rfl⟩ := Nat.exists_eq_add_of_le' counts.pos
      obtain ⟨hcen', hdir', -⟩ := Timer.cycle_frame s.params s.tim
      exact ⟨_, Sys2Proof.Machine.step_tim hin hcount down, rfl, hbusy, hfault, hon, hpre,
        (Nat.le_succ budget).trans hwithin,
        .uifPoll code (hcen'.trans enabled) (hdir'.trans down) left (counts.cycle_of_more (by omega)) (by omega)⟩
    | chunk _ stopped | pscWr _ stopped | uifClr _ stopped | cntWr _ stopped | cenSet _ stopped =>
      exact absurd hcen (Bool.eq_false_iff.mp stopped)

theorem step_env (hin : s.inputs = .env :: rest) : step s = .next { s with inputs := rest } := step_cons s hin

theorem step_rdStat (hin : s.inputs = rdStat :: rest) :
    step s = .next { s with inputs := rest, hostData := some s.statWord } := step_cons s hin

/-- Turns of the agents in any order keep a delay pending as long as the budget has a cycle for each of TIM's. -/
theorem DelayPending.runFor {es : List Event} (hes : ∀ e ∈ es, e = .seq ∨ e = .tim ∨ e = .env ∨ e = rdStat)
    (h : DelayPending dur v (es.count .tim) s) (hin : s.inputs = es ++ rest) :
    ∃ t, runFor es.length s = .next t ∧ t.inputs = rest ∧ DelayPending dur v 0 t := by
  induction es generalizing s with
  | nil => exact ⟨s, rfl, hin, h⟩
  | cons e es ih =>
    obtain ⟨he, hrest⟩ := List.forall_mem_cons.mp hes
    have hstep : ∃ t, step s = .next t ∧ t.inputs = es ++ rest ∧ DelayPending dur v (es.count .tim) t := by
      rcases he with rfl | rfl | rfl | rfl
      · exact DelayPending.step_seq (by rwa [List.count_cons_of_ne (by decide)] at h) hin
      · exact DelayPending.step_tim (by rwa [List.count_cons_self] at h) hin
      · exact ⟨_, step_env hin, rfl, h.mono (List.count_le_count_cons ..) _ _⟩
      · exact ⟨_, step_rdStat hin, rfl, h.mono (List.count_le_count_cons ..) _ _⟩
    obtain ⟨t, ht, hinputs, hpending⟩ := hstep
    rw [List.length_cons, runFor_next es.length ht]
    exact ih hrest hpending hinputs

theorem BeforeExpiry.code_mem (h : BeforeExpiry dur v budget s) :
    s.upc ∈ [Upc.chunk, Upc.pscWr, Upc.uifClr, Upc.cntWr, Upc.cenSet, Upc.uifPoll] := by
  cases h with
  | chunk code | pscWr code | uifClr code | cntWr code | cenSet code | uifPoll code => rw [code]; decide

theorem BeforeExpiry.polling (h : BeforeExpiry dur v budget s) (hupc : s.upc = Upc.uifPoll) :
    s.tim.uif = false ∧ s.tim.cen = true := by
  cases h with
  | uifPoll _ enabled _ _ counts => exact ⟨counts.flag, enabled⟩
  | chunk code | pscWr code | uifClr code | cntWr code | cenSet code => exact absurd (code.symm.trans hupc) (by decide)

end Pending

theorem splitPreg_eq_extract (P : Word) : splitPreg P = P.extractLsb' 0 16 := by
  apply BitVec.eq_of_toNat_eq
  rw [splitPreg_toNat, BitVec.extractLsb'_toNat, Nat.shiftRight_zero]

/-- Settles O39: the host line leaves the delay pending at its CHUNK with the bound as its budget, and the turns keep it
pending. -/
theorem singleChunkDelayNeverEndsEarly : Obligations.SingleChunkDelayNeverEndsEarly := by
  intro u w n s es rest hfault hbusy hlife _ hen hrst hpre hfits hn _ hcen hes hbudget hin
  rw [List.append_assoc] at hin
  have hline := runFor_delayLine hfault hbusy hlife hfits hin
  rw [← chunkDuration_of_le hn, ← splitPreg_eq_extract] at hbudget
  have hpending : DelayPending (chunkDuration n) (splitPreg (s.prescalerOf u)) (es.count .tim) { s with
      arg := n, busy := true, cop := delayOpcode u w, n := n, p := s.prescalerOf u, upc := Upc.chunk,
      inputs := es ++ rest } :=
    ⟨rfl, hfault, s.timerReachable_on hen hrst, hpre, hbudget, .chunk rfl hcen rfl rfl⟩
  obtain ⟨t, hrun, hinputs, hend⟩ := hpending.runFor hes rfl
  exact ⟨t, (runFor_add _ hline).trans hrun, hinputs, hend.busy, hend.fault, hend.place.code_mem, hend.place.polling⟩

end Sys2Proof.Machine

/-!
PROOFS. The bounded delay (42_bounded_delay.md): which prescalers R191 splits, which frequencies ask for a split (R198, R199),
and that the cycles per tick fall short of a prescaler that splits (R197).
-/

namespace Sys2Proof.Machine

/-! ## Which prescalers split (R191) -/

section Split
variable {v : Word} {f : Nat}

theorem splitReps_eq_one (h : v.toNat < 65536) : splitReps v = 1#17 :=
  BitVec.eq_of_toNat_eq (by rw [splitReps_toNat, Nat.div_eq_of_lt h]; rfl)

theorem splitPreg_toNat_of_lt (h : v.toNat < 65536) : (splitPreg v).toNat = v.toNat := by
  rw [splitPreg_toNat, Nat.mod_eq_of_lt h]

theorem two_le_splitReps_iff : 2 ≤ (splitReps v).toNat ↔ 65536 ≤ v.toNat := by
  rw [splitReps_toNat]
  omega

/-! ## Which frequencies ask for a split (R198, R199) -/

theorem usPrescaler_lt (h : f < 2 ^ 32) : (usPrescaler f).toNat < 65536 :=
  (prescalers_le h).1.trans_lt (by decide)

theorem le_msPrescaler_iff (h : f < 2 ^ 32) : 65536 ≤ (msPrescaler f).toNat ↔ 65535000 < f := by
  rw [msPrescaler_toNat (by omega)]
  omega

end Split

/-- Settles O29: in the domain of R143 the microsecond prescaler fits PREG, and the millisecond prescaler reaches 2^16 just
above the threshold. -/
theorem millisecondSplitThreshold : Obligations.MillisecondSplitThreshold := fun _ hf =>
  ⟨⟨splitReps_eq_one (usPrescaler_lt hf), splitPreg_toNat_of_lt (usPrescaler_lt hf)⟩,
    two_le_splitReps_iff.trans (le_msPrescaler_iff hf)⟩

/-! ## The cycles per tick of a prescaler that splits (R197, R266) -/

theorem divisor_of_not_plusOne {p : Params} (h : p.pscPlusOne = false) (v : Half) : divisor p v = max v.toNat 1 := by
  simp [divisor, h]

/-- A repetition's divisor is the low half `r`, or 1 for 0, and each of the `q` repetitions after the first stands for 65536
cycles of the prescaler. -/
theorem split_product_lt {q r : Nat} (hq : 1 ≤ q) (hr : r < 65536) : (q + 1) * max r 1 < 65536 * q + r := by
  rcases Nat.eq_zero_or_pos r with rfl | hpos
  · rw [Nat.zero_max]
    omega
  · calc (q + 1) * max r 1 = r * q + r := by rw [Nat.max_eq_left hpos, Nat.succ_mul, Nat.mul_comm]
      _ < 65536 * q + r := Nat.add_lt_add_right (Nat.mul_lt_mul_of_pos_right hr hq) r

/-- Settles O30: the prescaler is put together again from its high and its low half. -/
theorem splitPathRunsShort : Obligations.SplitPathRunsShort := by
  intro p v hplus hv
  rw [divisor_of_not_plusOne hplus, splitReps_toNat, splitPreg_toNat]
  calc (v.toNat / 65536 + 1) * max (v.toNat % 65536) 1
      < 65536 * (v.toNat / 65536) + v.toNat % 65536 :=
        split_product_lt ((Nat.one_le_div_iff (by decide)).mpr hv) (Nat.mod_lt _ (by decide))
    _ = v.toNat := Nat.div_add_mod ..

end Sys2Proof.Machine

/-!
PROOFS. The sequencer (43_sequencer.md): every step keeps the invariant of R229, the state after reset has it, a step
runs what CMD or upc decodes to (R210, R212), and the effect of each micro-operation (R211, R213 to R226).
-/

namespace Sys2Proof.Machine

/-! ## The controller part of the invariant, by what SEQ is doing (R227, R229 (a), (b), (f)) -/

/-- A command is running: BUSY = 1, FAULT = 0 and LIFE = 1. -/
structure State.Running (s : State) : Prop where
  busy : s.busy = true
  fault : s.fault = false
  life : s.life = true

/-- The parts of the state that the controller part of the invariant speaks of are kept. -/
structure KeepsControl (s t : State) : Prop where
  busy : t.busy = s.busy
  fault : t.fault = s.fault
  upc : t.upc = s.upc
  cop : t.cop = s.cop
  life : t.life = s.life
  rep : t.rep = s.rep
  reps : t.reps = s.reps

section Control
variable {s t : State} {c : Word}

theorem ControlInv.of_keeps (h : ControlInv s) (keeps : KeepsControl s t) : ControlInv t := by
  obtain ⟨hbusy, hfault, hupc, hcop, hlife, hrep, hreps⟩ := keeps
  obtain ⟨idle, fault, notBusy, table, init, pulse, release, delay, repetition⟩ := h
  constructor
  · rwa [hbusy, hfault, hupc]
  · rwa [hfault, hupc]
  · rwa [hfault, hbusy]
  · rwa [hupc]
  · rwa [hupc, hcop, hlife]
  · rwa [hupc, hcop, hlife]
  · rwa [hupc, hcop, hlife]
  · rwa [hupc, hlife]
  · rwa [hupc, hrep, hreps]

/-- IDLE and FAULT, where no command is running. -/
theorem ControlInv.of_resting (hupc : s.upc ∈ [Upc.idle, Upc.fault]) (hbusy : s.busy = false)
    (hfault : s.fault = true ↔ s.upc = Upc.fault) : ControlInv s := by
  have hcodes : ∀ u ∈ [Upc.idle, Upc.fault], (u ≠ Upc.fault ↔ u = Upc.idle) ∧ u ∈ microStates ∧
      u ∉ [Upc.enSet, Upc.dirDown, Upc.calc] ∧ u ∉ [Upc.rstSet, Upc.rstClr] ∧ u ≠ Upc.enClr ∧ u ∉ delayStates ∧
      u ∉ repetitionStates := by decide
  obtain ⟨hidle, hmem, hinit, hpulse, hrelease, hdelay, hrep⟩ := hcodes _ hupc
  exact {
    idle_iff := by rw [← hidle, ne_eq, ← hfault, Bool.not_eq_true]; exact and_iff_right hbusy
    fault_iff := hfault
    fault_not_busy := fun _ => hbusy
    upc_in_table := hmem
    init_states := (absurd · hinit)
    pulse_states := (absurd · hpulse)
    release_state := (absurd · hrelease)
    delay_owned := (absurd · hdelay)
    repetition := (absurd · hrep) }

theorem ControlInv.of_idle (hupc : s.upc = Upc.idle) (hbusy : s.busy = false) (hfault : s.fault = false) :
    ControlInv s :=
  .of_resting (by rw [hupc]; decide) hbusy (by rw [hupc, hfault]; decide)

theorem ControlInv.of_faulted (hupc : s.upc = Upc.fault) (hbusy : s.busy = false) (hfault : s.fault = true) :
    ControlInv s :=
  .of_resting (by rw [hupc]; decide) hbusy (by rw [hupc, hfault]; decide)

/-- The micro-states of a running command, with the COP and the repetition count that go with them. -/
theorem ControlInv.of_running (h : s.Running) (hmem : s.upc ∈ microStates) (hrests : s.upc ∉ [Upc.idle, Upc.fault])
    (hinit : s.upc ∈ [Upc.enSet, Upc.dirDown, Upc.calc] → s.cop = 0x01#8)
    (hpulse : s.upc ∈ [Upc.rstSet, Upc.rstClr] → s.cop = 0x01#8 ∨ s.cop = 0x02#8)
    (hrelease : s.upc = Upc.enClr → s.cop = 0x02#8)
    (hrep : s.upc ∈ repetitionStates → s.rep.toNat < s.reps.toNat) : ControlInv s where
  idle_iff := by simp [h.busy, List.ne_of_not_mem_cons hrests]
  fault_iff := by simp [h.fault, List.ne_of_not_mem_cons (List.not_mem_of_not_mem_cons hrests)]
  fault_not_busy := by simp [h.fault]
  upc_in_table := hmem
  init_states hupc := ⟨hinit hupc, h.life⟩
  pulse_states hupc := ⟨hpulse hupc, h.life⟩
  release_state hupc := ⟨hrelease hupc, h.life⟩
  delay_owned _ := h.life
  repetition := hrep

theorem ControlInv.of_init (h : s.Running) (hcop : s.cop = 0x01#8)
    (hupc : s.upc ∈ [Upc.enSet, Upc.rstSet, Upc.rstClr, Upc.dirDown, Upc.calc]) : ControlInv s := by
  have hcodes : ∀ u ∈ [Upc.enSet, Upc.rstSet, Upc.rstClr, Upc.dirDown, Upc.calc],
      u ∈ microStates ∧ u ∉ [Upc.idle, Upc.fault] ∧ u ≠ Upc.enClr ∧ u ∉ repetitionStates := by decide
  obtain ⟨hmem, hrests, hrelease, hrep⟩ := hcodes _ hupc
  exact .of_running h hmem hrests (fun _ => hcop) (fun _ => .inl hcop) (absurd · hrelease) (absurd · hrep)

theorem ControlInv.of_release (h : s.Running) (hcop : s.cop = 0x02#8)
    (hupc : s.upc ∈ [Upc.rstSet, Upc.rstClr, Upc.enClr]) : ControlInv s := by
  have hcodes : ∀ u ∈ [Upc.rstSet, Upc.rstClr, Upc.enClr],
      u ∈ microStates ∧ u ∉ [Upc.idle, Upc.fault] ∧ u ∉ [Upc.enSet, Upc.dirDown, Upc.calc] ∧
      u ∉ repetitionStates := by decide
  obtain ⟨hmem, hrests, hinit, hrep⟩ := hcodes _ hupc
  exact .of_running h hmem hrests (absurd · hinit) (fun _ => .inr hcop) (fun _ => hcop) (absurd · hrep)

theorem ControlInv.of_delay (h : s.Running) (hupc : s.upc ∈ delayStates)
    (hrep : s.upc ∈ repetitionStates → s.rep.toNat < s.reps.toNat) : ControlInv s := by
  have hcodes : ∀ u ∈ delayStates,
      u ∈ microStates ∧ u ∉ [Upc.idle, Upc.fault] ∧ u ∉ [Upc.enSet, Upc.dirDown, Upc.calc] ∧
      u ∉ [Upc.rstSet, Upc.rstClr] ∧ u ≠ Upc.enClr := by decide
  obtain ⟨hmem, hrests, hinit, hpulse, hrelease⟩ := hcodes _ hupc
  exact .of_running h hmem hrests (absurd · hinit) (absurd · hpulse) (absurd · hrelease) hrep

/-- Outside IDLE and FAULT a command is running. -/
theorem ControlInv.running (h : ControlInv s) (hrests : s.upc ∉ [Upc.idle, Upc.fault]) : s.Running := by
  have hcommand : ∀ u ∈ microStates, u ∉ [Upc.idle, Upc.fault] → u ∈ [Upc.enSet, Upc.dirDown, Upc.calc] ∨
      u ∈ [Upc.rstSet, Upc.rstClr] ∨ u = Upc.enClr ∨ u ∈ delayStates := by decide
  have hfault : s.fault = false := Bool.eq_false_iff.mpr fun hf => hrests (by rw [h.fault_iff.mp hf]; decide)
  have hbusy : s.busy = true := by
    by_contra hb
    exact hrests (by rw [h.idle_iff.mp ⟨Bool.eq_false_iff.mpr hb, hfault⟩]; decide)
  have hlife : s.life = true := by
    rcases hcommand _ h.upc_in_table hrests with hmem | hmem | hmem | hmem
    · exact (h.init_states hmem).2
    · exact (h.pulse_states hmem).2
    · exact (h.release_state hmem).2
    · exact h.delay_owned hmem
  exact ⟨hbusy, hfault, hlife⟩

/-- The controller part alone, over a CMD write (R212, R251). -/
theorem State.issueCommand_keeps_controlInv (hcontrol : ControlInv s) (h : s.issueCommand c = .next t) :
    ControlInv t := by
  obtain ⟨t', h', hcase⟩ := s.issueCommand_next c
  obtain rfl := Host.Outcome.next.inj (h.symm.trans h')
  rcases hcase with ⟨-, rfl⟩ | ⟨-, -, rfl⟩ | ⟨-, -, _, rfl⟩ | ⟨hfault, -, -, -, -, rfl⟩ | ⟨hfault, -, hlife, -, rfl⟩ |
    ⟨hfault, -, hlife, _, _, -, rfl⟩
  · exact hcontrol
  · exact .of_faulted rfl rfl rfl
  · exact .of_faulted rfl rfl rfl
  · exact .of_init ⟨rfl, hfault, rfl⟩ rfl (by decide : Upc.enSet ∈ _)
  · exact .of_release ⟨rfl, hfault, hlife⟩ rfl (by decide : Upc.rstSet ∈ _)
  · exact .of_delay ⟨rfl, hfault, hlife⟩ (by decide : Upc.chunk ∈ _) (absurd · (by decide : Upc.chunk ∉ _))

/-- R215: RST_CLR goes on with the command whose pulse it ends. -/
theorem ControlInv.afterResetPulse (h : s.Running) (hcop : s.cop = 0x01#8 ∨ s.cop = 0x02#8) :
    ControlInv s.afterResetPulse := by
  rcases s.afterResetPulse_cases with ⟨hinit, e⟩ | ⟨hrelease, e⟩ | ⟨hnotInit, hnotRelease, -⟩
  · rw [e]
    exact .of_init { h with } hinit (by decide : Upc.dirDown ∈ _)
  · rw [e]
    exact .of_release { h with } hrelease (by decide : Upc.enClr ∈ _)
  · exact absurd hcop (not_or.mpr ⟨hnotInit, hnotRelease⟩)

/-- R225: CEN_CLR stays inside the delay or ends it, since REP has not passed REPS. -/
theorem ControlInv.afterRepetition (h : s.Running) (hrep : s.rep.toNat ≤ s.reps.toNat) :
    ControlInv s.afterRepetition := by
  rcases s.afterRepetition_cases with ⟨hmore, e⟩ | ⟨-, -, e⟩ | ⟨-, -, e⟩ | ⟨hpast, -⟩
  · rw [e]
    exact .of_delay { h with } (by decide : Upc.uifClr ∈ _) (fun _ => hmore)
  · rw [e]
    exact .of_idle rfl rfl h.fault
  · rw [e]
    exact .of_delay { h with } (by decide : Upc.chunk ∈ _) (absurd · (by decide : Upc.chunk ∉ _))
  · omega

/-- R213 to R226: every micro-operation goes on with its command or ends it. -/
theorem State.seqTurn_keeps_controlInv (hcontrol : ControlInv s) (h : s.seqTurn = .next t) : ControlInv t := by
  cases State.seqTurn_next h
  case uopIdle _ leaves | uopFault _ leaves => exact leaves ▸ hcontrol
  all_goals
    rename_i code leaves
    have hrun : s.Running := hcontrol.running (by rw [code]; decide)
  case uopEnSet =>
    obtain ⟨hcop, -⟩ := hcontrol.init_states (by rw [code]; decide)
    exact leaves ▸ .of_init { hrun with } hcop (by decide : Upc.rstSet ∈ _)
  case uopRstSet =>
    subst leaves
    obtain ⟨hcop | hcop, -⟩ := hcontrol.pulse_states (by rw [code]; decide)
    · exact .of_init { hrun with } hcop (by decide : Upc.rstClr ∈ _)
    · exact .of_release { hrun with } hcop (by decide : Upc.rstClr ∈ _)
  case uopRstClr =>
    obtain ⟨hcop, -⟩ := hcontrol.pulse_states (by rw [code]; decide)
    exact leaves ▸ .afterResetPulse { hrun with } hcop
  case uopEnClr => exact leaves ▸ .of_idle rfl rfl hrun.fault
  case uopDirDown =>
    obtain ⟨hcop, -⟩ := hcontrol.init_states (by rw [code]; decide)
    exact leaves ▸ .of_init { hrun with } hcop (by decide : Upc.calc ∈ _)
  case uopCalc => exact leaves ▸ .of_idle rfl rfl hrun.fault
  case uopChunk =>
    exact leaves ▸ .of_delay { hrun with } (by decide : Upc.pscWr ∈ _) (absurd · (by decide : Upc.pscWr ∉ _))
  case uopPscWr =>
    have hrep : (0#17).toNat < (splitReps s.p).toNat := by rw [splitReps_toNat]; exact Nat.succ_pos _
    exact leaves ▸ .of_delay { hrun with } (by decide : Upc.uifClr ∈ _) (fun _ => hrep)
  case uopUifClr | uopCntWr | uopCenSet =>
    have hrep := hcontrol.repetition (by rw [code]; decide)
    exact leaves ▸ .of_delay { hrun with } (by simp [delayStates]) (fun _ => hrep)
  case uopUifPoll =>
    have hnext : (if s.pollUif then Upc.cenClr else Upc.uifPoll) ∈ delayStates := by split <;> decide
    exact leaves ▸ .of_delay { hrun with } hnext (fun _ => hcontrol.repetition (by rw [code]; decide))
  case uopCenClr =>
    have hrep := hcontrol.repetition (by rw [code]; decide)
    obtain ⟨hcount, -⟩ := State.countRepetition_rep_of_lt
      (s.seqWrite .cr1 (cr1Word s.params true false) (Timer.setCr1 true false)) hrep
    exact leaves ▸ .afterRepetition { hrun with } (hcount.le.trans hrep)

end Control

/-! ## The timer part of the invariant (R229 (c), (d), (e)) -/

/-- Where the counter is enabled and what is on record of the timer's use are kept. -/
structure KeepsHistory (s t : State) : Prop where
  cen : t.tim.cen = s.tim.cen
  ownership : t.ownership = s.ownership
  hostUsed : t.hostUsed = s.hostUsed
  cutShort : t.cutShort = s.cutShort

/-- Everything the invariant speaks of is kept. -/
structure KeepsSequencer (s t : State) : Prop extends KeepsControl s t, KeepsHistory s t where
  fcode : t.fcode = s.fcode
  rccEn : t.rccEn = s.rccEn
  rccRst : t.rccRst = s.rccRst
  dir : t.tim.dir = s.tim.dir

section TimerPart
variable {s t : State} {e : Event} {c : Word}

/-- No command is using the timer: it is released, or the sequencer has faulted. -/
theorem OwnedInv.of_unused (hcontrol : ControlInv s) (h : s.life = true → s.fault = true) : OwnedInv s := by
  have hrests : s.upc ∈ [Upc.idle, Upc.fault] := by
    by_contra hmem
    obtain ⟨-, hfault, hlife⟩ := hcontrol.running hmem
    exact absurd (h hlife) (Bool.eq_false_iff.mp hfault)
  have hcodes : ∀ u ∈ [Upc.idle, Upc.fault],
      u ∉ delayStates ∧ u ≠ Upc.calc ∧ u ∉ [Upc.rstSet, Upc.rstClr] ∧ u ≠ Upc.dirDown := by decide
  obtain ⟨hdelay, hcalc, hpulse, hdir⟩ := hcodes _ hrests
  have hidle : ¬ (s.upc = Upc.idle ∧ s.life = true) := fun ⟨hupc, hlife⟩ =>
    Bool.eq_false_iff.mp (hcontrol.idle_iff.mpr hupc).2 (h hlife)
  exact {
    timer_ready := fun hready => absurd hready (by simp [hdelay, hcalc, hidle])
    pulse_clocked := fun ⟨hmem, _⟩ => absurd hmem hpulse
    direction_clocked := (absurd · hdir)
    counting_states := fun hlife hfault => absurd (h hlife) (Bool.eq_false_iff.mp hfault) }

/-- R229 (c): a timer that is clocked, out of reset and counts down is ready for a delay. -/
theorem OwnedInv.of_ready (hready : s.rccEn = true ∧ s.rccRst = false ∧ s.tim.dir = true)
    (hcen : s.tim.cen = true → s.upc ∈ [Upc.uifPoll, Upc.cenClr, Upc.enSet, Upc.rstSet]) : OwnedInv s :=
  have ⟨hen, hrst, _⟩ := hready
  { timer_ready := fun _ => hready
    pulse_clocked := fun _ => hen
    direction_clocked := fun _ => ⟨hen, hrst⟩
    counting_states := fun _ _ => hcen }

theorem ownedInv_of_ready_stopped (hready : s.rccEn = true ∧ s.rccRst = false ∧ s.tim.dir = true)
    (hcen : s.tim.cen = false) : OwnedInv s ∧ s.tim.cen = false :=
  ⟨.of_ready hready fun h => absurd h (Bool.eq_false_iff.mp hcen), hcen⟩

/-- INIT and RELEASE up to the write of DIR, with the clock that INIT's pulse and that write need. -/
theorem OwnedInv.of_lifecycle (hupc : s.upc ∈ [Upc.enSet, Upc.rstSet, Upc.rstClr, Upc.enClr, Upc.dirDown])
    (hpulse : s.upc ∈ [Upc.rstSet, Upc.rstClr] → s.cop = 0x01#8 → s.rccEn = true)
    (hdir : s.upc = Upc.dirDown → s.rccEn = true ∧ s.rccRst = false)
    (hcen : s.tim.cen = true → s.upc ∈ [Upc.uifPoll, Upc.cenClr, Upc.enSet, Upc.rstSet]) : OwnedInv s := by
  have hcodes : ∀ u ∈ [Upc.enSet, Upc.rstSet, Upc.rstClr, Upc.enClr, Upc.dirDown],
      u ∉ delayStates ∧ u ≠ Upc.calc ∧ u ≠ Upc.idle := by decide
  obtain ⟨hdelay, hcalc, hidle⟩ := hcodes _ hupc
  exact {
    timer_ready := fun hready => absurd hready (by simp [hdelay, hcalc, hidle])
    pulse_clocked := fun ⟨hmem, hcop⟩ => hpulse hmem hcop
    direction_clocked := hdir
    counting_states := fun _ _ => hcen }

/-- R229 (d) for an owned timer: outside UIF_POLL, CEN_CLR, EN_SET and RST_SET it does not count. -/
theorem OwnedInv.cen_eq_false (h : OwnedInv s) (hlife : s.life = true) (hfault : s.fault = false)
    (hupc : s.upc ∉ [Upc.uifPoll, Upc.cenClr, Upc.enSet, Upc.rstSet]) : s.tim.cen = false :=
  Bool.eq_false_iff.mpr fun hcen => hupc (h.counting_states hlife hfault hcen)

/-- R229 (d): outside UIF_POLL and CEN_CLR only a fault leaves the counter running. -/
theorem StoppedInv.cen_eq_false (h : StoppedInv s) (hupc : s.upc ∉ [Upc.uifPoll, Upc.cenClr])
    (hfault : s.fault = false) : s.tim.cen = false :=
  Bool.eq_false_iff.mpr fun hcen => (h.cen_states hcen).elim hupc (Bool.eq_false_iff.mp hfault)

theorem StoppedInv.of_cen_eq_false (h : s.tim.cen = false) : StoppedInv s where
  cen_states hcen := absurd hcen (Bool.eq_false_iff.mp h)
  cen_fault hcen := absurd hcen (Bool.eq_false_iff.mp h)

theorem OwnedInv.of_keeps (h : OwnedInv s) (keeps : KeepsSequencer s t) : OwnedInv t := by
  obtain ⟨⟨-, hfault, hupc, hcop, hlife, -, -⟩, ⟨hcen, -, -, -⟩, -, hen, hrst, hdir⟩ := keeps
  obtain ⟨ready, pulse, direction, counting⟩ := h
  constructor
  · rwa [hupc, hlife, hen, hrst, hdir]
  · rwa [hupc, hcop, hen]
  · rwa [hupc, hen, hrst]
  · rwa [hlife, hfault, hcen, hupc]

theorem ReleasedInv.of_keeps (h : ReleasedInv s) (keeps : KeepsSequencer s t) : ReleasedInv t := by
  rwa [ReleasedInv, keeps.life, keeps.cen, keeps.fault, keeps.hostUsed]

theorem StoppedInv.of_keeps (h : StoppedInv s) (keeps : KeepsSequencer s t) : StoppedInv t := by
  obtain ⟨⟨-, hfault, hupc, -⟩, ⟨hcen, -⟩, hfcode, -⟩ := keeps
  obtain ⟨states, fault⟩ := h
  constructor
  · rwa [hcen, hupc, hfault]
  · rwa [hcen, hfault, hfcode]

/-! ## The whole invariant, by what the next state is like -/

theorem SequencerInv.of_keeps (h : SequencerInv s) (keeps : KeepsSequencer s t) : SequencerInv t := by
  obtain ⟨hcontrol, howned, hstopped⟩ := h
  refine ⟨hcontrol.of_keeps keeps.toKeepsControl, fun hown => ?_, fun hown hcut => ?_⟩
  · exact (howned (keeps.ownership ▸ hown)).of_keeps keeps
  · obtain ⟨hreleased, hcen⟩ := hstopped (keeps.ownership ▸ hown) (keeps.cutShort ▸ hcut)
    exact ⟨hreleased.of_keeps keeps, fun hused => (hcen (keeps.hostUsed ▸ hused)).of_keeps keeps⟩

/-- The counter is stopped. -/
theorem SequencerInv.of_stopped (hcontrol : ControlInv t)
    (h : t.ownership = false → OwnedInv t ∧ t.tim.cen = false) : SequencerInv t :=
  ⟨hcontrol, fun hown => (h hown).1,
    fun hown _ => ⟨fun _ => .inl (h hown).2, fun _ => .of_cen_eq_false (h hown).2⟩⟩

/-- A delay is counting. -/
theorem SequencerInv.of_counting (hcontrol : ControlInv t) (hupc : t.upc ∈ [Upc.uifPoll, Upc.cenClr])
    (howned : t.ownership = false → OwnedInv t) : SequencerInv t := by
  have hcodes : ∀ u ∈ [Upc.uifPoll, Upc.cenClr], u ∉ [Upc.idle, Upc.fault] := by decide
  obtain ⟨-, hfault, hlife⟩ := hcontrol.running (hcodes _ hupc)
  exact ⟨hcontrol, howned, fun _ _ => ⟨fun hfree => absurd hlife (Bool.eq_false_iff.mp hfree),
    fun _ => ⟨fun _ => .inl hupc, fun _ hf => absurd hf (Bool.eq_false_iff.mp hfault)⟩⟩⟩

/-- A lifecycle command begins: a counter that HOST, or a reset that cut a delay short, has left running still runs. -/
theorem SequencerInv.of_begun (hs : SequencerInv s) (hupc : s.upc ∈ [Upc.idle, Upc.enSet]) (keeps : KeepsHistory s t)
    (hlife : t.life = true) (hcontrol : ControlInv t) (howned : s.ownership = false → OwnedInv t) :
    SequencerInv t := by
  obtain ⟨hscontrol, -, hstopped⟩ := hs
  have hcodes : ∀ u ∈ [Upc.idle, Upc.enSet], u ≠ Upc.fault ∧ u ∉ [Upc.uifPoll, Upc.cenClr] := by decide
  obtain ⟨hnotFault, hnotPolling⟩ := hcodes _ hupc
  refine ⟨hcontrol, fun hown => howned (keeps.ownership ▸ hown),
    fun hown hcut => ⟨fun hfree => absurd hlife (Bool.eq_false_iff.mp hfree), fun hused => ?_⟩⟩
  obtain ⟨-, hcen⟩ := hstopped (keeps.ownership ▸ hown) (keeps.cutShort ▸ hcut)
  exact .of_cen_eq_false (keeps.cen.trans ((hcen (keeps.hostUsed ▸ hused)).cen_eq_false hnotPolling
    (Bool.eq_false_iff.mpr (mt hscontrol.fault_iff.mp hnotFault))))

/-- R251: a fault stops SEQ and not the timer; only CMD_WHILE_BUSY finds it counting. -/
theorem SequencerInv.raiseFault {cause : FaultCause} (hs : SequencerInv s)
    (hcause : cause = .cmdWhileBusy ∨ s.fault = false ∧ s.busy = false) : SequencerInv (s.raiseFault cause) := by
  obtain ⟨hcontrol, -, hstopped⟩ := hs
  refine ⟨.of_faulted rfl rfl rfl, fun _ => .of_unused (.of_faulted rfl rfl rfl) (fun _ => rfl),
    fun hown hcut => ⟨fun _ => .inr (.inl rfl), fun hused => ⟨fun _ => .inr rfl, fun hcen _ => ?_⟩⟩⟩
  rcases hcause with rfl | ⟨hfault, hbusy⟩
  · rfl
  · have hidle := hcontrol.idle_iff.mp ⟨hbusy, hfault⟩
    obtain ⟨-, hcen'⟩ := hstopped hown hcut
    have hstop := (hcen' hused).cen_eq_false (by rw [hidle]; decide) hfault
    exact absurd hcen (Bool.eq_false_iff.mp hstop)

/-- HOST has used a released timer itself (R264). -/
theorem SequencerInv.of_hostUse (hcontrol : ControlInv t) (hlife : t.life = false) (hused : t.hostUsed = true) :
    SequencerInv t :=
  ⟨hcontrol, fun _ => .of_unused hcontrol fun h => absurd h (Bool.eq_false_iff.mp hlife),
    fun _ _ => ⟨fun _ => .inr (.inr hused), fun h => absurd hused (Bool.eq_false_iff.mp h)⟩⟩

/-- R257: of a timer that HOST has raced for, the invariant says nothing. -/
theorem SequencerInv.of_ownership (hcontrol : ControlInv t) (hown : t.ownership = true) : SequencerInv t :=
  ⟨hcontrol, fun h => absurd hown (Bool.eq_false_iff.mp h), fun h => absurd hown (Bool.eq_false_iff.mp h)⟩

/-! ## The events -/

theorem State.issueCommand_keeps_sequencerInv (hinv : SequencerInv s) (h : s.issueCommand c = .next t) :
    SequencerInv t := by
  have ⟨hcontrol, howned, _⟩ := hinv
  have htcontrol := State.issueCommand_keeps_controlInv hcontrol h
  obtain ⟨t', h', hcase⟩ := s.issueCommand_next c
  obtain rfl := Host.Outcome.next.inj (h.symm.trans h')
  have hidle (hfault : s.fault = false) (hbusy : s.busy = false) : s.upc = Upc.idle :=
    hcontrol.idle_iff.mp ⟨hbusy, hfault⟩
  rcases hcase with ⟨-, rfl⟩ | ⟨-, -, rfl⟩ | ⟨hfault, hbusy, _, rfl⟩ | ⟨hfault, hbusy, -, -, -, rfl⟩ |
    ⟨hfault, hbusy, hlife, -, rfl⟩ | ⟨hfault, hbusy, hlife, _, _, -, rfl⟩
  · exact hinv
  · exact hinv.raiseFault (.inl rfl)
  · exact hinv.raiseFault (.inr ⟨hfault, hbusy⟩)
  · exact hinv.of_begun (by rw [hidle hfault hbusy]; decide) ⟨rfl, rfl, rfl, rfl⟩ rfl htcontrol fun _ =>
      .of_lifecycle (by decide : Upc.enSet ∈ _) (absurd · (by decide : Upc.enSet ∉ _))
        (absurd · (by decide : Upc.enSet ≠ _)) (fun _ => (by decide : Upc.enSet ∈ _))
  · exact hinv.of_begun (by rw [hidle hfault hbusy]; decide) ⟨rfl, rfl, rfl, rfl⟩ hlife htcontrol fun _ =>
      .of_lifecycle (by decide : Upc.rstSet ∈ _) (fun _ => (absurd · (by decide : 0x02#8 ≠ 0x01#8)))
        (absurd · (by decide : Upc.rstSet ≠ _)) (fun _ => (by decide : Upc.rstSet ∈ _))
  · refine .of_stopped htcontrol fun hown => ?_
    have hcen := (howned hown).cen_eq_false hlife hfault (by rw [hidle hfault hbusy]; decide)
    exact ownedInv_of_ready_stopped ((howned hown).timer_ready (.inr (.inr ⟨hidle hfault hbusy, hlife⟩))) hcen

/-- R215: after the reset pulse the timer is out of reset and stopped. -/
theorem State.afterResetPulse_ownedInv (hcop : s.cop = 0x01#8 ∨ s.cop = 0x02#8)
    (hclock : s.cop = 0x01#8 → s.rccEn = true) (hrst : s.rccRst = false) (hcen : s.tim.cen = false) :
    OwnedInv s.afterResetPulse ∧ s.afterResetPulse.tim.cen = false := by
  have hstop {u : Byte} (h : s.tim.cen = true) : u ∈ [Upc.uifPoll, Upc.cenClr, Upc.enSet, Upc.rstSet] :=
    absurd h (Bool.eq_false_iff.mp hcen)
  rcases s.afterResetPulse_cases with ⟨hinit, e⟩ | ⟨-, e⟩ | ⟨hnotInit, hnotRelease, -⟩
  · rw [e]
    exact ⟨.of_lifecycle (by decide : Upc.dirDown ∈ _) (absurd · (by decide : Upc.dirDown ∉ _))
      (fun _ => ⟨hclock hinit, hrst⟩) hstop, hcen⟩
  · rw [e]
    exact ⟨.of_lifecycle (by decide : Upc.enClr ∈ _) (absurd · (by decide : Upc.enClr ∉ _))
      (absurd · (by decide : Upc.enClr ≠ _)) hstop, hcen⟩
  · exact absurd hcop (not_or.mpr ⟨hnotInit, hnotRelease⟩)

/-- R225: the end of a repetition leaves a timer that is ready for the next. -/
theorem State.afterRepetition_ownedInv (hready : s.rccEn = true ∧ s.rccRst = false ∧ s.tim.dir = true)
    (hcen : s.tim.cen = false) : OwnedInv s.afterRepetition ∧ s.afterRepetition.tim.cen = false := by
  obtain ⟨_, _, _, e, -⟩ := s.afterRepetition_frame
  rw [e]
  exact ownedInv_of_ready_stopped hready hcen

/-- R213 to R226: a micro-operation finds the timer as its predecessors have left it. -/
theorem State.seqTurn_keeps_sequencerInv (hinv : SequencerInv s) (h : s.seqTurn = .next t) : SequencerInv t := by
  have ⟨hcontrol, howned, _⟩ := hinv
  have htcontrol := State.seqTurn_keeps_controlInv hcontrol h
  cases State.seqTurn_next h
  case uopIdle _ leaves | uopFault _ leaves => exact leaves ▸ hinv
  all_goals
    rename_i code leaves
    obtain ⟨-, hfault, hlife⟩ := hcontrol.running (by rw [code]; decide)
    subst leaves
  case uopEnSet =>
    exact hinv.of_begun (by rw [code]; decide) ⟨rfl, rfl, rfl, rfl⟩ hlife htcontrol fun _ =>
      .of_lifecycle (by decide : Upc.rstSet ∈ _) (fun _ _ => rfl) (absurd · (by decide : Upc.rstSet ≠ _))
        (fun _ => (by decide : Upc.rstSet ∈ _))
  case uopRstSet =>
    exact .of_stopped htcontrol fun hown => ⟨.of_lifecycle (by decide : Upc.rstClr ∈ _)
      (fun _ hcop => (howned hown).pulse_clocked ⟨by rw [code]; decide, hcop⟩)
      (absurd · (by decide : Upc.rstClr ≠ _)) (absurd · Bool.false_ne_true), rfl⟩
  case uopRstClr =>
    have hmem : s.upc ∈ [Upc.rstSet, Upc.rstClr] := by rw [code]; decide
    obtain ⟨hcop, -⟩ := hcontrol.pulse_states hmem
    obtain ⟨_, _, e, -⟩ := State.afterResetPulse_frame ((s.writeRst false).logBus (.atomicClear .rst))
    refine .of_stopped htcontrol fun hown => ?_
    replace hown : s.ownership = false := by rwa [e] at hown
    exact State.afterResetPulse_ownedInv hcop (fun hinit => (howned hown).pulse_clocked ⟨hmem, hinit⟩) rfl
      ((howned hown).cen_eq_false hlife hfault (by rw [code]; decide))
  case uopEnClr =>
    exact .of_stopped htcontrol fun hown => ⟨.of_unused htcontrol (absurd · Bool.false_ne_true),
      (howned hown).cen_eq_false hlife hfault (by rw [code]; decide)⟩
  case uopDirDown =>
    refine .of_stopped htcontrol fun hown => ?_
    obtain ⟨hen, hrst⟩ := (howned hown).direction_clocked code
    rw [s.seqWrite_on _ _ _ (s.timerReachable_on hen hrst)]
    exact ownedInv_of_ready_stopped ⟨hen, hrst, rfl⟩ rfl
  case uopCalc =>
    exact .of_stopped htcontrol fun hown => ownedInv_of_ready_stopped ((howned hown).timer_ready (.inr (.inl code)))
      ((howned hown).cen_eq_false hlife hfault (by rw [code]; decide))
  all_goals have hdelay : s.upc ∈ delayStates := by rw [code]; decide
  case uopChunk =>
    exact .of_stopped htcontrol fun hown => ownedInv_of_ready_stopped ((howned hown).timer_ready (.inl hdelay))
      ((howned hown).cen_eq_false hlife hfault (by rw [code]; decide))
  case uopPscWr | uopUifClr | uopCntWr =>
    refine .of_stopped htcontrol fun hown => ?_
    obtain ⟨hen, hrst, hdir⟩ := (howned hown).timer_ready (.inl hdelay)
    rw [s.seqWrite_on _ _ _ (s.timerReachable_on hen hrst)]
    exact ownedInv_of_ready_stopped ⟨hen, hrst, hdir⟩ ((howned hown).cen_eq_false hlife hfault (by rw [code]; decide))
  case uopCenSet =>
    refine .of_counting htcontrol (by decide : Upc.uifPoll ∈ _) fun hown => ?_
    obtain ⟨hen, hrst, -⟩ := (howned hown).timer_ready (.inl hdelay)
    have hon := s.timerReachable_on hen hrst
    rw [State.drawPhase_on (s := State.seqWrite _ _ _ s) hon, s.seqWrite_on _ _ _ hon]
    exact .of_ready ⟨hen, hrst, rfl⟩ (fun _ => (by decide : Upc.uifPoll ∈ _))
  case uopUifPoll =>
    have hnext : (if s.pollUif then Upc.cenClr else Upc.uifPoll) ∈ [Upc.uifPoll, Upc.cenClr] := by split <;> decide
    exact .of_counting htcontrol hnext fun hown =>
      .of_ready ((howned hown).timer_ready (.inl hdelay)) (fun _ => List.mem_append_left _ hnext)
  case uopCenClr =>
    obtain ⟨_, _, _, e, -⟩ := State.afterRepetition_frame
      (s.seqWrite .cr1 (cr1Word s.params true false) (Timer.setCr1 true false)).countRepetition
    refine .of_stopped htcontrol fun hown => ?_
    replace hown : s.ownership = false := by rwa [e] at hown
    obtain ⟨hen, hrst, -⟩ := (howned hown).timer_ready (.inl hdelay)
    rw [s.seqWrite_on _ _ _ (s.timerReachable_on hen hrst)]
    exact State.afterRepetition_ownedInv ⟨hen, hrst, rfl⟩ rfl

/-! What HOST's accesses and the turns of TIM and ENV keep. -/

theorem KeepsSequencer.refl (s : State) : KeepsSequencer s s := by constructor <;> constructor <;> rfl

theorem State.afterFetch_keepsSequencer (s : State) : KeepsSequencer s s.afterFetch := by
  obtain ⟨_, _, h⟩ := s.afterFetch_eq
  rw [h]
  constructor <;> constructor <;> rfl

theorem State.timTurn_keepsSequencer (h : s.timTurn = .next t) : KeepsSequencer s t := by
  rcases State.timTurn_next h with ⟨-, rfl⟩ | ⟨-, -, rfl⟩
  · exact .refl _
  · obtain ⟨hcen, hdir, -⟩ := Timer.cycle_frame s.params s.tim
    exact ⟨by constructor <;> rfl, ⟨hcen, rfl, rfl, rfl⟩, rfl, rfl, rfl, hdir⟩

theorem State.writeTimerReg_keepsControl (s : State) (r : TimReg) (v : Word) :
    KeepsControl s (s.writeTimerReg r v) ∧ (s.writeTimerReg r v).hostUsed = true := by
  obtain ⟨_, _, heq, -⟩ := s.writeTimerReg_eq r v
  rw [heq]
  exact ⟨by constructor <;> rfl, rfl⟩

theorem RccUse.keepsControl (h : RccUse s t) : KeepsControl s t ∧ t.hostUsed = true := by
  obtain ⟨_, _, _, rfl, -⟩ := h
  exact ⟨by constructor <;> rfl, rfl⟩

/-- R264: the timer that HOST may use is a released one. -/
theorem State.life_of_owned_eq_false (h : s.owned = false) : s.life = false :=
  (Bool.or_eq_false_iff.mp h).1

theorem SequencerInv.hostUse (hinv : SequencerInv s) (hfree : s.owned = false)
    (huse : KeepsControl s t ∧ t.hostUsed = true) : SequencerInv t := by
  obtain ⟨hkeeps, hused⟩ := huse
  exact .of_hostUse (hinv.1.of_keeps hkeeps) (hkeeps.life.trans (s.life_of_owned_eq_false hfree)) hused

theorem State.cutShort_of_engineReset (h : s.engineReset.cutShort = false) :
    s.cutShort = false ∧ s.busy = false ∧ (s.fault = true → s.fcode ≠ faultCode .cmdWhileBusy) := by
  simpa [Bool.or_eq_false_iff, and_assoc] using h

/-- R229 (d): the counter runs only for a delay or after CMD_WHILE_BUSY, and an engine reset cuts both short. -/
theorem StoppedInv.cen_eq_false_of_engineReset (h : StoppedInv s) (hcontrol : ControlInv s)
    (hcut : s.engineReset.cutShort = false) : s.tim.cen = false := by
  obtain ⟨-, hbusy, hcause⟩ := State.cutShort_of_engineReset hcut
  cases hfault : s.fault with
  | false =>
    have hidle := hcontrol.idle_iff.mp ⟨hbusy, hfault⟩
    exact h.cen_eq_false (by rw [hidle]; decide) hfault
  | true => exact Bool.eq_false_iff.mpr fun hcen => hcause hfault (h.cen_fault hcen hfault)

theorem SequencerInv.engineReset (hinv : SequencerInv s) : SequencerInv s.engineReset := by
  obtain ⟨hcontrol, -, hstopped⟩ := hinv
  have htcontrol : ControlInv s.engineReset := .of_idle rfl rfl rfl
  have hcen (hown : s.ownership = false) (hcut : s.engineReset.cutShort = false) (hused : s.hostUsed = false) :
      s.tim.cen = false := by
    obtain ⟨-, hstop⟩ := hstopped hown (State.cutShort_of_engineReset hcut).1
    exact (hstop hused).cen_eq_false_of_engineReset hcontrol hcut
  refine ⟨htcontrol, fun _ => .of_unused htcontrol (absurd · Bool.false_ne_true), fun hown hcut => ⟨fun _ => ?_, ?_⟩⟩
  · cases hused : s.hostUsed with
    | false => exact .inl (hcen hown hcut hused)
    | true => exact .inr (.inr hused)
  · exact fun hused => .of_cen_eq_false (hcen hown hcut hused)

theorem SequencerInv.systemReset (s : State) : SequencerInv s.systemReset :=
  have hcontrol : ControlInv s.systemReset := .of_idle rfl rfl rfl
  .of_stopped hcontrol fun _ => ⟨.of_unused hcontrol (absurd · Bool.false_ne_true), rfl⟩

theorem act_keeps_sequencerInv (hinv : SequencerInv s) (h : act e s = .next t) : SequencerInv t := by
  cases act_next h with
  | command _ _ issues => exact State.issueCommand_keeps_sequencerInv hinv issues
  | seq _ turn => exact State.seqTurn_keeps_sequencerInv hinv turn
  | timerWrite r v _ free _ leaves => exact hinv.hostUse free (leaves ▸ s.writeTimerReg_keepsControl r v)
  | rccWrite _ free use => exact hinv.hostUse free use.keepsControl
  | race isRead _ _ leaves => exact leaves ▸ .of_ownership (hinv.1.of_keeps (by constructor <;> rfl)) rfl
  | engReset _ leaves => exact leaves ▸ hinv.engineReset
  | sysReset _ leaves => exact leaves ▸ .systemReset s
  | tim _ turn => exact hinv.of_keeps (State.timTurn_keepsSequencer turn)
  | ignored _ _ leaves => exact leaves ▸ hinv
  | env _ leaves => exact leaves ▸ hinv
  | read _ _ _ _ leaves => exact hinv.of_keeps (leaves ▸ by constructor <;> constructor <;> rfl)
  | argument _ _ _ leaves => exact hinv.of_keeps (leaves ▸ by constructor <;> constructor <;> rfl)
  | clkRun _ _ leaves => exact hinv.of_keeps (leaves ▸ by constructor <;> constructor <;> rfl)

end TimerPart

/-- Settles O42: what SEQ is doing fixes which part of the invariant binds, each event leaves it in a state of the next
part, and taking the event off changes nothing the invariant speaks of. -/
theorem stepKeepsSequencerInv : Obligations.StepKeepsSequencerInv := fun s _ hinv h =>
  act_keeps_sequencerInv (hinv.of_keeps s.afterFetch_keepsSequencer) h

/-! ## The state after reset (R302) -/

theorem sequencerInv_resetFor (ps : Params) (es : List Event) : SequencerInv { State.resetFor ps with inputs := es } :=
  have hcontrol : ControlInv { State.resetFor ps with inputs := es } := .of_idle rfl rfl rfl
  .of_stopped hcontrol fun _ => ⟨.of_unused hcontrol (absurd · Bool.false_ne_true), rfl⟩

/-- Settles O45: after reset SEQ is idle and the timer released, stopped and at its reset values. -/
theorem resetHasInvariants : Obligations.ResetHasInvariants :=
  ⟨fun ps es => ⟨sequencerInv_resetFor ps es, ⟨fun _ => rfl, fun _ => rfl⟩,
    .of_outside (Nat.zero_le _) (Nat.zero_le _) (by decide : Upc.idle ∈ _)⟩, State.reset_eq⟩

/-! ## What a step runs (R210, R212) -/

/-- Settles O5: the step takes the placed event, and a CMD write runs what the word and ARG decode to. -/
theorem stepRunsDecodedCommand : Obligations.StepRunsDecodedCommand := fun _ _ _ _ hin hd => step_wrCmd hin hd

/-- Settles O6: the step takes the placed event, and SEQ's turn runs what upc decodes to. -/
theorem stepRunsDecodedMicroOp : Obligations.StepRunsDecodedMicroOp := fun _ _ _ hin hd => step_seq hin hd

/-! ## The micro-operations without a timer write (R211, R213 to R216, R218, R219, R226) -/

/-- Settles O16: both arms answer the state they are given. -/
theorem idleAndFaultHaveNoStep : Obligations.IdleAndFaultHaveNoStep := fun _ => ⟨rfl, rfl⟩

/-- Settles O17: each writes RCC.EN and its registers, and nothing reads the timer. -/
theorem clockGateEffect : Obligations.ClockGateEffect := fun _ => ⟨rfl, rfl⟩

/-- Settles O18: writing RCC.RST = 1 puts the timer at the values of R272. -/
theorem rstSetEffect : Obligations.RstSetEffect := fun _ => rfl

section ResetPulse
variable {s : State}

theorem exec_rstClr (s : State) : exec .uopRstClr s = .next (State.afterResetPulse { s with
    rccRst := false, busTrace := .atomicClear .rst :: s.busTrace }) := rfl

theorem State.afterResetPulse_of_init (h : s.cop = 0x01#8) :
    s.afterResetPulse = { s with upc := Upc.dirDown } := if_pos h

theorem State.afterResetPulse_of_release (h : s.cop = 0x02#8) :
    s.afterResetPulse = { s with upc := Upc.enClr } := by
  rw [State.afterResetPulse, if_neg (by rw [h]; decide), if_pos h]

theorem State.afterResetPulse_of_other (hinit : s.cop ≠ 0x01#8) (hrelease : s.cop ≠ 0x02#8) :
    s.afterResetPulse = s.gotoFree := by
  rw [State.afterResetPulse, if_neg hinit, if_neg hrelease]

end ResetPulse

/-- Settles O19: COP survives the write of RCC.RST and names the successor. -/
theorem rstClrEffect : Obligations.RstClrEffect := fun s =>
  ⟨fun hcop => (exec_rstClr s).trans (congrArg _ (State.afterResetPulse_of_init hcop)),
    fun hcop => (exec_rstClr s).trans (congrArg _ (State.afterResetPulse_of_release hcop))⟩

/-! f_eff by the two cases of R138. -/

theorem fEff_of_double {p : Params} (h : p.timclkDoubleWhenDiv1 = true) (pclk : Word) :
    fEff p pclk true = pclk.toNat * 2 ∧ fEff p pclk false = pclk.toNat * 1 := by
  simp [fEff, clockMult, h]

theorem fEff_of_not_double {p : Params} (h : p.timclkDoubleWhenDiv1 = false) (pclk : Word) :
    fEff p pclk true = pclk.toNat * 1 ∧ fEff p pclk false = pclk.toNat * 2 := by
  simp [fEff, clockMult, h]

/-- Settles O21: the ceilings of an f_eff of at most 2^33 - 2 fit 32 bits. -/
theorem calcEffect : Obligations.CalcEffect :=
  ⟨fun p pclk => ⟨(fEff_of_double · pclk), (fEff_of_not_double · pclk), fEff_le p pclk⟩,
    fun _ => ⟨_, _, rfl, usPrescaler_toNat (fEff_le ..), msPrescaler_toNat (fEff_le ..)⟩⟩

theorem chunkDuration_of_gt {n : Word} (h : 65535 < n.toNat) : chunkDuration n = 0xFFFF#16 := by
  rw [chunkDuration, chunkIsLast_of_gt h, if_neg Bool.false_ne_true]

theorem exec_chunk (s : State) : exec .uopChunk s = .next { s with
    dur := chunkDuration s.n, n := chunkRemainder s.n, last := chunkIsLast s.n, upc := Upc.pscWr } := rfl

/-- Settles O22: N above 0xFFFF is what R167 calls not the last chunk. -/
theorem chunkEffect : Obligations.ChunkEffect := by
  refine fun s => ⟨fun hmore => ⟨chunkRemainder s.n, chunkRemainder_toNat s.n, ?_⟩,
    fun hlast => ⟨chunkDuration s.n, ?_, ?_⟩⟩
  · rw [exec_chunk, chunkDuration_of_gt hmore, chunkIsLast_of_gt hmore]
    rfl
  · rw [chunkDuration_toNat, min_eq_left hlast]
  · rw [exec_chunk, chunkRemainder_of_le hlast, chunkIsLast_of_le hlast]
    rfl

/-! ## The micro-operations that access the timer (R217, R220 to R225), on a timer that ignores them (R93) -/

section Ignored
variable {s : State}

theorem exec_dirDown_off (hoff : s.timerReachable = false) :
    exec .uopDirDown s = .next { s with
      upc := Upc.calc, busTrace := .memWrite .cr1 (1#32 <<< s.params.dirBit.val) :: s.busTrace } := by
  show Host.Outcome.next { State.seqWrite .cr1 _ _ s with upc := Upc.calc } = _
  rw [s.seqWrite_off _ _ _ hoff, cr1Word_down]

theorem exec_uifClr_off (hoff : s.timerReachable = false) :
    exec .uopUifClr s = .next { s with
      upc := Upc.cntWr, busTrace := .memWrite .sr (uifClearWord s.params) :: s.busTrace } := by
  show Host.Outcome.next { State.seqWrite .sr _ _ s with upc := Upc.cntWr } = _
  rw [s.seqWrite_off _ _ _ hoff]

theorem exec_cntWr_off (hoff : s.timerReachable = false) :
    exec .uopCntWr s = .next { s with
      upc := Upc.cenSet, busTrace := .memWrite .cnt (s.dur.setWidth 32) :: s.busTrace } := by
  show Host.Outcome.next { State.seqWrite .cnt _ _ s with upc := Upc.cenSet } = _
  rw [s.seqWrite_off _ _ _ hoff]

theorem exec_pscWr_off (hoff : s.timerReachable = false) :
    exec .uopPscWr s = .next { s with
      reps := splitReps s.p, preg := splitPreg s.p, rep := 0#17, upc := Upc.uifClr,
      busTrace := .memWrite .psc ((splitPreg s.p).setWidth 32) :: s.busTrace } := by
  show Host.Outcome.next { State.seqWrite .psc _ _ s with
    reps := splitReps s.p, preg := splitPreg s.p, rep := 0#17, upc := Upc.uifClr } = _
  rw [s.seqWrite_off _ _ _ hoff]

theorem State.drawPhase_off (hoff : s.timerReachable = false) : s.drawPhase = s := by
  simp [State.drawPhase, hoff]

theorem exec_cenSet_off (hoff : s.timerReachable = false) :
    exec .uopCenSet s = .next { s with
      upc := Upc.uifPoll, busTrace := .memWrite .cr1 (cr1Word s.params true true) :: s.busTrace } := by
  show Host.Outcome.next { (State.seqWrite .cr1 _ _ s).drawPhase with upc := Upc.uifPoll } = _
  rw [State.drawPhase_off (s := State.seqWrite _ _ _ s) hoff, s.seqWrite_off _ _ _ hoff]

theorem State.pollUif_eq_false (h : s.rccEn = false ∨ s.rccRst = true ∨ s.tim.uif = false) : s.pollUif = false := by
  rcases h with h | h | h <;> simp [State.pollUif, State.timerReachable, h]

end Ignored

/-- R78: the 16-bit registers are written zero-extended. -/
theorem toNat_setWidth_half (v : Half) : (v.setWidth 32).toNat = v.toNat :=
  BitVec.toNat_setWidth_of_le (by decide)

/-- Settles O20: a timer that is clocked and out of reset takes the write, and any other ignores it. -/
theorem timerWriteMicroOpEffects : Obligations.TimerWriteMicroOpEffects := by
  refine fun s => ⟨s.dur.setWidth 32, toNat_setWidth_half s.dur, fun hen hrst => ?_, fun h => ?_⟩ <;>
    rw [← uifClearWord_eq]
  · have hon := s.timerReachable_on hen hrst
    exact ⟨exec_dirDown hen hrst, exec_uifClr hon, exec_cntWr hon⟩
  · have hoff := s.timerReachable_off h
    exact ⟨exec_dirDown_off hoff, exec_uifClr_off hoff, exec_cntWr_off hoff⟩

/-- Settles O23: the split of R191 as numbers, and the write of its low half. -/
theorem pscWrEffect : Obligations.PscWrEffect := fun s =>
  ⟨splitReps s.p, splitPreg s.p, (splitPreg s.p).setWidth 32, splitReps_toNat s.p, splitPreg_toNat s.p,
    toNat_setWidth_half _, fun hen hrst => exec_pscWr (s.timerReachable_on hen hrst),
    fun h => exec_pscWr_off (s.timerReachable_off h)⟩

/-- Settles O24: the phase is the free draw reduced below the divisor, and a write that is ignored draws none. -/
theorem cenSetEffect : Obligations.CenSetEffect := fun s =>
  ⟨fun hen hrst => ⟨((s.tim.setCr1 true true).startAt s.params (Config.draw s.draws)).pcnt,
      (s.tim.setCr1 true true).startAt_pcnt_lt s.params (Config.draw s.draws),
      exec_cenSet (s.timerReachable_on hen hrst)⟩,
    fun h => exec_cenSet_off (s.timerReachable_off h)⟩

theorem exec_uifPoll_eq (s : State) : exec .uopUifPoll s = .next { s with
    upc := if s.pollUif then Upc.cenClr else Upc.uifPoll, busTrace := .memRead .sr :: s.busTrace } := rfl

/-- Settles O25: SEQ reads UIF of a timer that answers, and 0 of any other. -/
theorem uifPollEffect : Obligations.UifPollEffect := by
  refine fun s => ⟨fun hen hrst huif => ?_, fun h => ?_⟩
  · rw [exec_uifPoll (s.timerReachable_on hen hrst), huif]
    rfl
  · rw [exec_uifPoll_eq, State.pollUif_eq_false h]
    rfl

/-! ## CEN_CLR (R225) -/

section EndOfRepetition
variable {s : State}

/-- What CEN_CLR's write of CR1 leaves of the timer (R93). -/
def State.stoppedTimer (s : State) : Timer := if s.timerReachable then s.tim.setCr1 true false else s.tim

theorem State.stoppedTimer_on (hen : s.rccEn = true) (hrst : s.rccRst = false) :
    s.stoppedTimer = { s.tim with dir := true, cen := false } :=
  if_pos (s.timerReachable_on hen hrst)

theorem State.stoppedTimer_off (h : s.rccEn = false ∨ s.rccRst = true) : s.stoppedTimer = s.tim := by
  rw [State.stoppedTimer, s.timerReachable_off h, if_neg Bool.false_ne_true]

/-- The state in which CEN_CLR, its write done and the repetition counted, chooses its successor. -/
def State.repetitionEnded (s : State) : State :=
  State.countRepetition { s with
    tim := s.stoppedTimer, busTrace := .memWrite .cr1 (1#32 <<< s.params.dirBit.val) :: s.busTrace }

theorem exec_cenClr_eq (s : State) : exec .uopCenClr s = .next s.repetitionEnded.afterRepetition := by
  rw [State.repetitionEnded, ← cr1Word_down]
  rfl

theorem State.repetitionEnded_of_ne_top (h : s.rep ≠ 0x1FFFF#17) :
    s.repetitionEnded = { s with
      tim := s.stoppedTimer, rep := s.rep + 1#17,
      busTrace := .memWrite .cr1 (1#32 <<< s.params.dirBit.val) :: s.busTrace } := by
  simp [State.repetitionEnded, State.countRepetition, h]

theorem State.repetitionEnded_of_top (h : s.rep = 0x1FFFF#17) :
    s.repetitionEnded = { s with
      tim := s.stoppedTimer, rep := BitVec.ofNat 17 (Config.draw s.draws), draws := s.draws + 1,
      busTrace := .memWrite .cr1 (1#32 <<< s.params.dirBit.val) :: s.busTrace } := by
  simp [State.repetitionEnded, State.countRepetition, State.freeBits, h]

theorem toNat_add_one_of_ne_top {v : Count} (h : v ≠ 0x1FFFF#17) : (v + 1#17).toNat = v.toNat + 1 := by
  bv_omega

theorem ne_top_of_lt {v w : Count} (h : v.toNat < w.toNat) : v ≠ 0x1FFFF#17 := by
  bv_omega

theorem State.afterRepetition_of_past (h : s.reps.toNat < s.rep.toNat) : s.afterRepetition = s.gotoFree := by
  rw [State.afterRepetition, if_neg (by omega), if_neg (fun he => by rw [he] at h; exact lt_irrefl _ h)]

/-- The choice of the successor writes upc, BUSY and the count of draws. -/
theorem State.afterRepetition_eq (s : State) :
    s.afterRepetition = { s with
      upc := s.afterRepetition.upc, draws := s.afterRepetition.draws, busy := s.afterRepetition.busy } := by
  obtain ⟨_, _, _, e, -⟩ := s.afterRepetition_frame
  rw [e]

/-- R225, by the new REP and LAST: the successor, and BUSY. -/
theorem State.afterRepetition_successor (s : State) :
    (s.rep.toNat < s.reps.toNat → s.afterRepetition.upc = Upc.uifClr ∧ s.afterRepetition.busy = s.busy) ∧
    (s.rep = s.reps → s.last = false → s.afterRepetition.upc = Upc.chunk ∧ s.afterRepetition.busy = s.busy) ∧
    (s.rep = s.reps → s.last = true → s.afterRepetition.upc = Upc.idle ∧ s.afterRepetition.busy = false) ∧
    (s.reps.toNat < s.rep.toNat → s.afterRepetition.upc = microStates.getD (Config.draw s.draws % 15) Upc.idle ∧
      s.afterRepetition.busy = s.busy) := by
  refine ⟨fun hmore => ?_, fun hend hlast => ?_, fun hend hlast => ?_, fun hpast => ?_⟩
  · rw [State.afterRepetition_of_lt hmore]
    exact ⟨rfl, rfl⟩
  · rw [State.afterRepetition_of_more hend hlast]
    exact ⟨rfl, rfl⟩
  · rw [State.afterRepetition_of_last hend hlast]
    exact ⟨rfl, rfl⟩
  · rw [State.afterRepetition_of_past hpast]
    exact ⟨rfl, rfl⟩

end EndOfRepetition

/-- Settles O26: below REPS the new REP does not wrap, and R225 gives each value of it a successor. -/
theorem cenClrEffect : Obligations.CenClrEffect := by
  intro s hrep
  have hne := ne_top_of_lt hrep
  have hexec := exec_cenClr_eq s
  rw [State.repetitionEnded_of_ne_top hne] at hexec
  exact ⟨s.rep + 1#17, s.stoppedTimer, toNat_add_one_of_ne_top hne, State.stoppedTimer_on, State.stoppedTimer_off,
    fun hmore => hexec.trans (congrArg _ (State.afterRepetition_of_lt hmore)),
    fun hend hlast => hexec.trans (congrArg _ (State.afterRepetition_of_more hend hlast)),
    fun hend hlast => hexec.trans (congrArg _ (State.afterRepetition_of_last hend hlast))⟩

/-- Settles O27: neither COP nor REP has a successor in R215 or R225, so both come to the free draw. -/
theorem unstatedSuccessorsAreFree : Obligations.UnstatedSuccessorsAreFree := by
  refine fun s => ⟨fun hinit hrelease => ?_, fun hpast => ⟨s.stoppedTimer, State.stoppedTimer_on,
    State.stoppedTimer_off, fun hne => ⟨s.rep + 1#17, toNat_add_one_of_ne_top hne, ?_⟩, fun htop => ?_⟩⟩
  · exact (exec_rstClr s).trans (congrArg _ (State.afterResetPulse_of_other hinit hrelease))
  · have hover : s.reps.toNat < (s.rep + 1#17).toNat := by
      rw [toNat_add_one_of_ne_top hne]
      exact Nat.lt_succ_of_le hpast
    rw [exec_cenClr_eq, State.repetitionEnded_of_ne_top hne]
    exact congrArg _ (State.afterRepetition_of_past hover)
  · have hexec := exec_cenClr_eq s
    have hsuccessor := s.repetitionEnded.afterRepetition_successor
    rw [State.afterRepetition_eq] at hexec
    rw [State.repetitionEnded_of_top htop] at hexec hsuccessor
    exact ⟨_, _, _, _, rfl, hexec, hsuccessor⟩

end Sys2Proof.Machine

/-!
PROOFS. The faults of the command accept (60_exceptions.md R251 to R259): what each command does where one of the checks
applies, that a CMD write reports the first of them, and that no other event sets FAULT.
-/

namespace Sys2Proof.Machine

/-! ## The checks every command begins with (R253, R259) -/

/-- R259: every HOST command is a gate over what that command decides. -/
theorem exec_eq_commandGate {i : Instr} (h : isCommand i = true) :
    ∃ k, ∀ s, exec i s = .next (s.commandGate k) := by
  cases i with
  | init | release | delayMs8 | delayMs16 | delayMs32 | delayUs8 | delayUs16 | delayUs32 => exact ⟨_, fun _ => rfl⟩
  | _ => exact absurd h Bool.false_ne_true

/-- Settles O9: the gate answers before the command is looked at. -/
theorem commandTurnedAway : Obligations.CommandTurnedAway := by
  intro i s hi
  obtain ⟨k, hk⟩ := exec_eq_commandGate hi
  rw [hk]
  exact ⟨fun hf => by rw [s.commandGate_faulted k hf], fun hf hb => by rw [s.commandGate_busy k hf hb]; rfl⟩

/-! ## The faults a command decides on (R254 to R256) -/

section IdleFaults
variable {s : State} {u : DelayUnit} {w : OperandWidth} {n pclk : Word} {div1 : Bool}

theorem exec_init_lifecycle (hf : s.fault = false) (hb : s.busy = false) (hl : s.life = true) :
    exec (.init pclk div1) s = .next (s.faultedWith 2#4) := by
  show Host.Outcome.next (s.commandGate (State.acceptInit pclk div1)) = _
  rw [s.commandGate_idle _ hf hb, State.acceptInit, if_pos hl]
  rfl

theorem exec_init_domain (hf : s.fault = false) (hb : s.busy = false) (hl : s.life = false)
    (hd : 2 ^ 32 ≤ fEff s.params pclk div1) : exec (.init pclk div1) s = .next (s.faultedWith 4#4) := by
  show Host.Outcome.next (s.commandGate (State.acceptInit pclk div1)) = _
  rw [s.commandGate_idle _ hf hb, State.acceptInit, if_neg (by simp [hl]), if_pos (show 4294967296 ≤ _ from hd)]
  rfl

theorem exec_release_lifecycle (hf : s.fault = false) (hb : s.busy = false) (hl : s.life = false) :
    exec .release s = .next (s.faultedWith 2#4) := by
  show Host.Outcome.next (s.commandGate State.acceptRelease) = _
  rw [s.commandGate_idle _ hf hb, State.acceptRelease, if_neg (by simp [hl])]
  rfl

/-- R160: the operand of a delay is checked before the lifecycle state. -/
theorem exec_delay_illegal (hf : s.fault = false) (hb : s.busy = false) (hw : w.admits n = false) :
    exec (delayInstr u w n) s = .next (s.faultedWith 3#4) := by
  rw [exec_delayInstr, s.commandGate_idle _ hf hb, State.acceptDelay, operandInRange, hw]
  rfl

theorem exec_delay_lifecycle (hf : s.fault = false) (hb : s.busy = false) (hl : s.life = false)
    (hw : w.admits n = true) : exec (delayInstr u w n) s = .next (s.faultedWith 2#4) := by
  rw [exec_delayInstr, s.commandGate_idle _ hf hb, State.acceptDelay, operandInRange, hw, hl]
  rfl

end IdleFaults

/-- Settles O10: an idle machine without fault passes the gate, and the lifecycle state is not the one the command needs. -/
theorem lifecycleMismatchFaults : Obligations.LifecycleMismatchFaults := fun _ hf hb =>
  ⟨fun hl _ _ => exec_init_lifecycle hf hb hl, fun hl => exec_release_lifecycle hf hb hl,
    fun hl _ _ _ hw => exec_delay_lifecycle hf hb hl hw⟩

/-- Settles O11: INIT's lifecycle check is passed, and its domain check is the last. -/
theorem outOfDomainInitFaults : Obligations.OutOfDomainInitFaults := fun _ _ _ hf hb hl hd =>
  exec_init_domain hf hb hl hd

/-! ## The CMD write, check by check (R259) -/

section CommandWrite
variable {s : State} {c : Word} {i : Instr}

theorem State.issueCommand_of_legal (h : LegalCommand c s.arg i) : s.issueCommand c = exec i s := by
  unfold State.issueCommand
  rw [h.decodes]

theorem State.issueCommand_busy (hf : s.fault = false) (hb : s.busy = true) :
    s.issueCommand c = .next (s.faultedWith 1#4) := by
  rcases s.issueCommand_cases c with ⟨-, -, h⟩ | ⟨-, -, h⟩ | ⟨_, _, -, -, -, h⟩ | ⟨-, h⟩ <;>
    rw [h, s.commandGate_busy _ hf hb] <;> rfl

theorem State.issueCommand_illegal (hf : s.fault = false) (hb : s.busy = false) (h : illegalWord c s.arg) :
    s.issueCommand c = .next (s.faultedWith 3#4) := by
  obtain ⟨e, he⟩ := (decoderRefusesExactlyIllegalWords c s.arg).mpr h
  unfold State.issueCommand
  rw [he]
  exact congrArg Host.Outcome.next (s.commandGate_idle _ hf hb)

theorem lifecycleMismatch_iff : lifecycleMismatch c s ↔
    (cmdOpc c = 0x01#8 ∧ s.life = true) ∨ (cmdOpc c ≠ 0x01#8 ∧ s.life = false) := by
  rw [lifecycleMismatch, ne_eq, ne_eq, cmdOpc_eq_iff]
  rfl

theorem outOfDomain_iff : outOfDomain c s ↔ cmdOpc c = 0x01#8 ∧ 2 ^ 32 ≤ fEff s.params s.arg (cmdDiv1 c) := by
  rw [outOfDomain, cmdOpc_eq_iff, cmdDiv1_eq]
  rfl

/-- R254: INIT, RELEASE and the delays each find the lifecycle state they cannot run in. -/
theorem exec_of_lifecycleMismatch (h : LegalCommand c s.arg i) (hf : s.fault = false) (hb : s.busy = false)
    (hm : lifecycleMismatch c s) : exec i s = .next (s.faultedWith 2#4) := by
  rw [lifecycleMismatch_iff] at hm
  generalize s.arg = a at h
  cases h with
  | init div1 => exact exec_init_lifecycle hf hb (by simpa using hm)
  | release => exact exec_release_lifecycle hf hb (by simpa using hm)
  | delay u w _ operand => exact exec_delay_lifecycle hf hb (by simpa [delayOpcode_ne_init] using hm) operand

/-- R256: INIT is the one command with a domain. -/
theorem exec_of_outOfDomain (h : LegalCommand c s.arg i) (hf : s.fault = false) (hb : s.busy = false)
    (hm : ¬ lifecycleMismatch c s) (hd : outOfDomain c s) : exec i s = .next (s.faultedWith 4#4) := by
  rw [lifecycleMismatch_iff] at hm
  rw [outOfDomain_iff] at hd
  generalize harg : s.arg = a at h hd
  cases h with
  | init div1 => exact exec_init_domain hf hb (by simpa using hm) (by simpa using hd)
  | release => simp at hd
  | delay u w => simp [delayOpcode_ne_init] at hd

/-- R212: a command that no check turns away is accepted. -/
theorem exec_of_noFault (h : LegalCommand c s.arg i) (hf : s.fault = false) (hb : s.busy = false)
    (hm : ¬ lifecycleMismatch c s) (hd : ¬ outOfDomain c s) : ∃ t, exec i s = .next t ∧
      t.fault = false ∧ t.fcode = s.fcode ∧ t.busy = true ∧ t.life = true := by
  rw [lifecycleMismatch_iff] at hm
  rw [outOfDomain_iff] at hd
  generalize s.arg = a at h hd
  cases h with
  | init div1 => exact ⟨_, exec_init_accepted hf hb (by simpa using hm) (by simpa using hd), hf, rfl, rfl, rfl⟩
  | release =>
    have hl : s.life = true := by simpa using hm
    exact ⟨_, exec_release_accepted hf hb hl, hf, rfl, rfl, hl⟩
  | delay u w _ operand =>
    have hl : s.life = true := by simpa [delayOpcode_ne_init] using hm
    exact ⟨_, exec_delay_accepted hf hb hl operand, hf, rfl, rfl, hl⟩

end CommandWrite

/-- Settles O12: the decoder refuses the word, and a delay term is checked again where it is accepted. -/
theorem illegalCommandFaults : Obligations.IllegalCommandFaults := fun _ hf hb =>
  ⟨fun _ h => State.issueCommand_illegal hf hb h, fun _ _ _ hw => exec_delay_illegal hf hb hw⟩

/-- Settles O13: the checks of R259 one after another; past the third the word is a legal command. -/
theorem commandWriteReportsFirstFault : Obligations.CommandWriteReportsFirstFault := by
  intro c s
  rw [act_wrCmd]
  by_cases hf : s.fault = true
  · exact ⟨s, State.issueCommand_faulted hf, by simp [hf]⟩
  rw [Bool.not_eq_true] at hf
  by_cases hb : s.busy = true
  · exact ⟨_, State.issueCommand_busy hf hb, by simp [hf, hb]⟩
  rw [Bool.not_eq_true] at hb
  by_cases hill : illegalWord c s.arg
  · exact ⟨_, State.issueCommand_illegal hf hb hill, by simp [hf, hb, hill]⟩
  obtain ⟨i, hi⟩ := (not_illegalWord_iff c s.arg).mp hill
  rw [State.issueCommand_of_legal hi]
  by_cases hm : lifecycleMismatch c s
  · exact ⟨_, exec_of_lifecycleMismatch hi hf hb hm, by simp [hf, hb, hill, hm]⟩
  by_cases hd : outOfDomain c s
  · exact ⟨_, exec_of_outOfDomain hi hf hb hm hd, by simp [hf, hb, hill, hm, hd]⟩
  · obtain ⟨t, ht, haccepted⟩ := exec_of_noFault hi hf hb hm hd
    exact ⟨t, ht, by simp [hf, hb, hill, hm, hd, haccepted]⟩

/-- Settles O14: no micro-operation raises a fault, a reset clears FAULT, and all other events but the CMD write keep it. -/
theorem onlyCommandWritesFault : Obligations.OnlyCommandWritesFault := by
  intro e s t h hf ht
  have hchange : t.fault ≠ s.fault := by simp [hf, ht]
  cases act_writer h with
  | command c host _ => exact ⟨c, host⟩
  | seq _ turn =>
    obtain ⟨hfault, -⟩ := State.seqTurn_frame turn
    exact absurd hfault hchange
  | clkRun _ _ leaves => exact absurd (leaves ▸ rfl) hchange
  | engReset _ leaves => simp [leaves] at ht
  | sysReset _ leaves => simp [leaves] at ht
  | other keeps => exact absurd keeps.fault hchange

end Sys2Proof.Machine

/-!
PROOFS. The timer unit (60_exceptions.md R265 to R274): the divisor and the tick (R266, R269), TIM's turn (R267, R271, R273),
the ticks of a countdown (R270), and what every step keeps of the timer in reset and of PSC_SH (R52, R272).
-/

namespace Sys2Proof.Machine

/-! ## The divisor and the tick (R266, R269) -/

section Tick
variable {p : Params} {t : Timer}

theorem divisor_of_plusOne (h : p.pscPlusOne = true) (v : Half) : divisor p v = v.toNat + 1 := by
  rw [divisor, if_pos h]

/-- R269: with UPDATE_ON_ZERO the update comes when CNT reaches 0. -/
theorem Timer.tick_of_one (hp : p.updateOnZero = true) (h : t.cnt = 1#16) :
    t.tick p = Timer.update p { t with cnt := 0#16 } := by
  rw [Timer.tick, if_pos hp, if_pos h]

/-- R269: a tick at CNT = 0 reloads CNT from ARR under either rule. -/
theorem Timer.tick_of_zero (h : t.cnt = 0#16) : t.tick p = Timer.update p { t with cnt := t.arr } := by
  have hone : t.cnt ≠ 1#16 := by rw [h]; decide
  rw [Timer.tick, if_neg hone, if_pos h, ite_self]

/-- R269: any other tick counts one down. -/
theorem Timer.tick_of_down (hp : p.updateOnZero = true → t.cnt ≠ 1#16) (h : t.cnt ≠ 0#16) :
    t.tick p = { t with cnt := t.cnt - 1#16 } := by
  by_cases hzero : p.updateOnZero = true
  · rw [Timer.tick, if_pos hzero, if_neg (hp hzero), if_neg h]
  · rw [Timer.tick, if_neg hzero, if_neg h]

end Tick

/-- Settles O32: the divisor by PSC_PLUS_ONE, and the tick by CNT = 1, CNT = 0 and the rest. -/
theorem divisorAndCounterTick : Obligations.DivisorAndCounterTick := by
  refine ⟨fun p v => ⟨fun h => divisor_of_plusOne h v, fun h => divisor_of_not_plusOne h v, divisor_pos p v,
    divisor_le p v⟩, fun p t => ⟨fun hp hcnt => ?_, fun hcnt => ?_, fun hp hcnt => ?_⟩⟩
  · exact Timer.tick_of_one hp (BitVec.eq_of_toNat_eq hcnt)
  · exact Timer.tick_of_zero (BitVec.eq_of_toNat_eq hcnt)
  · refine ⟨t.cnt - 1#16, by bv_omega, Timer.tick_of_down (fun h e => ?_) (fun e => ?_)⟩
    · have := hp h
      simp [e] at this
    · simp [e] at hcnt

/-! ## TIM's turn (R267, R271, R273) -/

section Turn
variable {s : State}

/-- R271: the four ways in which the counting condition fails. -/
theorem State.counting_eq_false_iff : s.counting = false ↔
    s.clkRun = false ∨ s.rccEn = false ∨ s.rccRst = true ∨ s.tim.cen = false := by
  simp only [State.counting, Bool.and_eq_false_iff, Bool.not_eq_false', or_assoc]

theorem State.timTurn_stopped (h : s.counting = false) : s.timTurn = .next s := by
  rw [State.timTurn, h]
  rfl

theorem State.timTurn_down (h : s.counting = true) (hdir : s.tim.dir = true) :
    s.timTurn = .next { s with tim := s.tim.cycle s.params } := by
  rw [State.timTurn, if_pos h, if_pos hdir]

theorem State.timTurn_up (h : s.counting = true) (hdir : s.tim.dir = false) : s.timTurn = .refused .upCount := by
  rw [State.timTurn, if_pos h, hdir]
  rfl

end Turn

/-- Settles O33: the counting condition, DIR and the phase decide a turn between them. -/
theorem timerTurn : Obligations.TimerTurn := by
  intro s
  simp only [act_tim]
  have counting (hclk : s.clkRun = true) (hen : s.rccEn = true) (hrst : s.rccRst = false) (hcen : s.tim.cen = true) :
      s.counting = true := State.counting_of hclk (s.timerReachable_on hen hrst) hcen
  refine ⟨fun h => State.timTurn_stopped (State.counting_eq_false_iff.mpr h), fun hclk hen hrst hcen hdir => ?_,
    fun hclk hen hrst hcen hdir => State.timTurn_up (counting hclk hen hrst hcen) hdir⟩
  rw [State.timTurn_down (counting hclk hen hrst hcen) hdir]
  refine ⟨fun hphase => ?_, fun hwrap => by rw [Timer.cycle_of_wrap (not_lt.mpr hwrap)]⟩
  obtain ⟨hcycle, hpcnt⟩ := Timer.cycle_of_phase hphase
  exact ⟨_, hpcnt, by rw [hcycle]⟩

/-! ## The ticks of a countdown (R270) -/

section Expiry
variable {p : Params} {t : Timer} {k : Nat}

/-- A tick leaves a flag that is set. -/
theorem ticks_uif_of_set (h : t.uif = true) : (ticks p k t).uif = true := by
  induction k generalizing t with
  | zero => exact h
  | succ k ih =>
    obtain ⟨-, -, -, -, -, hflag⟩ := Timer.tick_frame p t
    exact ih (hflag h)

/-- R270: the flag is set from tick T(n) on. -/
theorem ticks_uif (h : t.uif = false) : (ticks p k t).uif = decide (expiryTicks p t.cnt ≤ k) := by
  have hpos := expiryTicks_pos p t.cnt
  induction k generalizing t with
  | zero => rw [decide_eq_false (by omega)]; exact h
  | succ k ih =>
    by_cases hlast : expiryTicks p t.cnt = 1
    · rw [decide_eq_true (by omega)]
      exact ticks_uif_of_set (t := t.tick p) (Timer.tick_uif_of_last hlast)
    · obtain ⟨htick, hless⟩ := Timer.tick_of_more (p := p) (t := t) (by omega)
      have hmore := ih (t := { t with cnt := t.cnt - 1#16 }) h (expiryTicks_pos ..)
      rw [ticks, htick, hmore, decide_eq_decide, ← hless]
      exact Nat.succ_le_succ_iff.symm

end Expiry

/-- Settles O34: the flag by the ticks that are left, and the values and bounds of T(n) from its definition. -/
theorem expiryTickCount : Obligations.ExpiryTickCount := by
  refine fun p t hflag => ⟨fun k => ticks_uif hflag, ?_⟩
  unfold expiryTicks
  cases p.updateOnZero with
  | true => simp; omega
  | false => simp

/-! ## A timer in reset, and PSC_SH without preload (R52, R272) -/

section TimerInvariant
variable {s t : State} {e : Event} {c : Word}

theorem TimerInv.of_keeps (h : TimerInv s) (hrst : t.rccRst = s.rccRst) (htim : t.tim = s.tim)
    (hparams : t.params = s.params) : TimerInv t := by
  unfold TimerInv
  rw [hrst, htim, hparams]
  exact h

/-- R272: a timer at its reset values has both, whether RST is set or cleared. -/
theorem TimerInv.of_atReset (h : t.tim = Timer.atReset t.params) : TimerInv t :=
  ⟨fun _ => h, fun _ => by rw [h]; rfl⟩

/-- Out of reset only PSC_SH is bound. -/
theorem TimerInv.of_released (hrst : t.rccRst = false) (h : t.params.pscPreload = false → t.tim.pscSh = t.tim.psc) :
    TimerInv t :=
  ⟨fun hset => absurd (hset.symm.trans hrst) Bool.noConfusion, h⟩

/-- R93: a write that keeps PSC_SH at PSC without preload keeps both, since a timer in reset ignores it. -/
theorem TimerInv.timerWrite {f : Timer → Timer} (h : TimerInv s)
    (hf : s.params.pscPreload = false → s.tim.pscSh = s.tim.psc → (f s.tim).pscSh = (f s.tim).psc) :
    TimerInv (s.timerWrite f) := by
  cases hon : s.timerReachable with
  | false => exact h.of_keeps rfl (by simp [hon]) rfl
  | true =>
    obtain ⟨-, hrst⟩ := s.timerReachable_iff.mp hon
    obtain ⟨-, hshadow⟩ := h
    exact .of_released hrst fun hp => by simpa [hon] using hf hp (hshadow hp)

theorem TimerInv.drawPhase (h : TimerInv s) : TimerInv s.drawPhase :=
  TimerInv.timerWrite (f := Timer.startAt s.params (Config.draw s.draws)) h fun _ hshadow => hshadow

/-- R213 to R226: SEQ writes the timer where it answers, and RST_SET puts it at its reset values. -/
theorem State.seqTurn_keeps_timerInv (h : TimerInv s) (hturn : s.seqTurn = .next t) : TimerInv t := by
  cases State.seqTurn_next hturn with
  | uopIdle _ leaves | uopFault _ leaves => exact leaves ▸ h
  | uopEnSet _ leaves | uopEnClr _ leaves | uopCalc _ leaves | uopChunk _ leaves | uopUifPoll _ leaves =>
    subst leaves
    exact h.of_keeps rfl rfl rfl
  | uopRstSet _ leaves =>
    subst leaves
    exact .of_atReset rfl
  | uopRstClr _ leaves =>
    obtain ⟨_, _, heq, -⟩ := State.afterResetPulse_frame ((s.writeRst false).logBus (.atomicClear .rst))
    rw [leaves, heq]
    obtain ⟨-, hshadow⟩ := h
    exact .of_released rfl hshadow
  | uopDirDown _ leaves | uopUifClr _ leaves | uopCntWr _ leaves =>
    subst leaves
    exact (h.timerWrite fun _ hshadow => hshadow).of_keeps rfl rfl rfl
  | uopPscWr _ leaves =>
    subst leaves
    exact (h.timerWrite (f := Timer.setPsc s.params (splitPreg s.p)) fun hp _ => by simp [hp]).of_keeps rfl rfl rfl
  | uopCenSet _ leaves =>
    subst leaves
    have hwrite : TimerInv (s.seqWrite .cr1 (cr1Word s.params true true) (Timer.setCr1 true true)) :=
      (h.timerWrite fun _ hshadow => hshadow).of_keeps rfl rfl rfl
    exact hwrite.drawPhase.of_keeps rfl rfl rfl
  | uopCenClr _ leaves =>
    obtain ⟨_, _, _, heq, -⟩ := State.afterRepetition_frame
      (s.seqWrite .cr1 (cr1Word s.params true false) (Timer.setCr1 true false)).countRepetition
    rw [leaves, heq]
    exact (h.timerWrite (f := Timer.setCr1 true false) fun _ hshadow => hshadow).of_keeps rfl rfl rfl

theorem State.timTurn_keeps_timerInv (h : TimerInv s) (hturn : s.timTurn = .next t) : TimerInv t := by
  obtain ⟨hreset, hshadow⟩ := h
  rcases State.timTurn_next hturn with ⟨-, rfl⟩ | ⟨hcount, -, rfl⟩
  · exact ⟨hreset, hshadow⟩
  · have hrst : s.rccRst = false := by
      by_contra hset
      simp [State.counting, hset] at hcount
    obtain ⟨-, -, hpsc, -⟩ := Timer.cycle_frame s.params s.tim
    exact .of_released hrst fun hp => (Timer.cycle_pscSh s.params s.tim hp).trans ((hshadow hp).trans hpsc.symm)

theorem RccUse.keeps_timerInv (h : TimerInv s) (use : RccUse s t) : TimerInv t := by
  obtain ⟨en, rst, tim', rfl, ⟨-, rfl⟩ | ⟨rfl, rfl⟩ | ⟨rfl, rfl⟩⟩ := use
  · exact .of_atReset rfl
  · obtain ⟨-, hshadow⟩ := h
    exact .of_released rfl hshadow
  · exact h.of_keeps rfl rfl rfl

/-- R257: what the race leaves is free within both. -/
theorem State.ownershipRace_timerInv (s : State) (isRead : Bool) : TimerInv (s.ownershipRace isRead) := by
  cases hrst : s.freeBit 1 with
  | true => exact .of_atReset (by simp [hrst])
  | false =>
    refine .of_released hrst fun hp => ?_
    have hpre : s.params.pscPreload = false := hp
    simp [hrst, hpre]

theorem act_keeps_timerInv (h : TimerInv s) (hact : act e s = .next t) : TimerInv t := by
  cases act_next hact with
  | command c _ issues =>
    obtain ⟨t', h', htim, -, hrst, -, -, -, -, hparams, -⟩ := s.issueCommand_frame c
    obtain rfl := Host.Outcome.next.inj (issues.symm.trans h')
    exact h.of_keeps hrst htim hparams
  | timerWrite r v _ _ answers leaves =>
    obtain ⟨tim', d, heq, -, hshadow⟩ := s.writeTimerReg_eq r v
    obtain ⟨-, hrst⟩ := s.timerReachable_iff.mp answers
    obtain ⟨-, hbefore⟩ := h
    rw [leaves, heq]
    exact .of_released hrst fun hp => hshadow hp (hbefore hp)
  | rccWrite _ _ use => exact use.keeps_timerInv h
  | race isRead _ _ leaves => exact leaves ▸ s.ownershipRace_timerInv isRead
  | seq _ turn => exact State.seqTurn_keeps_timerInv h turn
  | tim _ turn => exact State.timTurn_keeps_timerInv h turn
  | ignored _ _ leaves | env _ leaves => exact leaves ▸ h
  | read _ _ _ _ leaves | argument _ _ _ leaves | clkRun _ _ leaves | engReset _ leaves =>
    subst leaves
    exact h.of_keeps rfl rfl rfl
  | sysReset _ leaves =>
    subst leaves
    exact .of_atReset rfl

end TimerInvariant

/-- Settles O43: whoever writes the timer writes one out of reset, or puts it at its reset values with RST. -/
theorem stepKeepsTimerInv : Obligations.StepKeepsTimerInv := by
  intro s t h hstep
  obtain ⟨is, k, heq⟩ := s.afterFetch_eq
  exact act_keeps_timerInv (heq ▸ h.of_keeps rfl rfl rfl) hstep

end Sys2Proof.Machine

/-!
PROOFS. Who may use the timer (60_exceptions.md R257, R264): a HOST access to an owned timer is recorded, and what HOST does
to a released one, its registers (R47 to R53, R93) and its two RCC bits (R56, R57, R76, R272).
-/

namespace Sys2Proof.Machine

/-! ## The OWNERSHIP record (R257, R306) -/

section Ownership
variable {e : Event} {s t : State} {c : Word}

theorem State.owned_iff : s.owned = true ↔ s.life = true ∨ s.busy = true := by simp [State.owned]

/-- R257: the accesses that only the owner may make go to the timer window or to a register of an RCC bit. -/
theorem touchesTimer_iff : e.touchesTimer ↔
    (∃ off, e.target = some (.timer, off)) ∨ ∃ b off, e.target = some (.rcc b, off) := by
  cases h : e.target with
  | none => simp [Event.touchesTimer, h]
  | some target =>
    obtain ⟨win, off⟩ := target
    rw [touchesTimer_of_target h]
    cases win <;> simp

/-- Such an access to an owned timer. -/
def Races (e : Event) (s : State) : Prop := s.owned = true ∧ e.touchesTimer

theorem races_iff : Races e s ↔ (s.life = true ∨ s.busy = true) ∧
    ((∃ off, e.target = some (.timer, off)) ∨ ∃ b off, e.target = some (.rcc b, off)) := by
  rw [Races, State.owned_iff, touchesTimer_iff]

theorem not_races_of_free (h : s.owned = false) : ¬ Races e s := fun ⟨howned, _⟩ =>
  Bool.false_ne_true (h.symm.trans howned)

theorem not_races_of_elsewhere (h : e.target = none) : ¬ Races e s := by
  rintro ⟨-, htouch⟩
  simp [touchesTimer_iff, h] at htouch

/-- R257: an event either races for an owned timer, which is recorded, or leaves the record. -/
theorem act_ownership (h : act e s = .next t) :
    (Races e s ∧ ∃ isRead, t = s.ownershipRace isRead) ∨ (¬ Races e s ∧ t.ownership = s.ownership) := by
  cases act_next h with
  | race isRead host owned leaves => exact .inl ⟨⟨owned, host⟩, isRead, leaves⟩
  | read _ _ _ free leaves =>
    exact .inr ⟨fun ⟨howned, htouch⟩ => not_races_of_free (free htouch) ⟨howned, htouch⟩, leaves ▸ rfl⟩
  | command c host issues =>
    obtain ⟨t', h', -, -, -, -, -, -, -, -, -, hownership, -⟩ := s.issueCommand_frame c
    obtain rfl := Host.Outcome.next.inj (issues.symm.trans h')
    exact .inr ⟨fun ⟨_, htouch⟩ => isCommand_not_touchesTimer host htouch, hownership⟩
  | argument _ _ other leaves => exact .inr ⟨fun ⟨_, htouch⟩ => other htouch, leaves ▸ rfl⟩
  | timerWrite r v _ free _ leaves =>
    obtain ⟨_, _, heq, -⟩ := s.writeTimerReg_eq r v
    exact .inr ⟨not_races_of_free free, by rw [leaves, heq]⟩
  | ignored _ free leaves => exact .inr ⟨not_races_of_free free, leaves ▸ rfl⟩
  | rccWrite _ free use =>
    obtain ⟨_, _, _, rfl, -⟩ := use
    exact .inr ⟨not_races_of_free free, rfl⟩
  | seq event turn =>
    obtain ⟨-, -, -, -, hownership, -⟩ := State.seqTurn_frame turn
    exact .inr ⟨not_races_of_elsewhere (event ▸ rfl), hownership⟩
  | tim event turn =>
    refine .inr ⟨not_races_of_elsewhere (event ▸ rfl), ?_⟩
    rcases State.timTurn_next turn with ⟨-, rfl⟩ | ⟨-, -, rfl⟩ <;> rfl
  | env event leaves | clkRun _ event leaves | engReset event leaves | sysReset event leaves =>
    exact .inr ⟨not_races_of_elsewhere (event ▸ rfl), leaves ▸ rfl⟩

end Ownership

/-- Settles O51: a race records the fault and leaves the controller registers, and every other event leaves the record. -/
theorem ownershipRecorded : Obligations.OwnershipRecorded := by
  intro e s t h
  rw [← races_iff]
  rcases act_ownership h with ⟨hraces, isRead, rfl⟩ | ⟨hnot, hkept⟩
  · exact ⟨fun _ => rfl, fun _ => iff_of_true rfl hraces, fun _ _ => ⟨rfl, rfl⟩⟩
  · exact ⟨hkept.trans, fun hnone => iff_of_false (by simp [hkept, hnone]) hnot,
      fun hnone hrecorded => by simp [hkept, hnone] at hrecorded⟩

/-! ## The five registers of a released timer (R47 to R53, R93, R264) -/

section TimerAccess
variable {s : State} {p : Params} {t : Timer} {r : TimReg} {off : Nat} {size : AccessSize} {v : Word}

theorem State.owned_eq_false (hl : s.life = false) (hb : s.busy = false) : s.owned = false := by
  simp [State.owned, hl, hb]

theorem cenBit_ne_dirBit (h : p.wf = true) : p.cenBit ≠ p.dirBit := by
  simp only [Params.wf, Bool.and_eq_true, decide_eq_true_eq] at h
  obtain ⟨⟨hbits, -⟩, -⟩ := h
  exact hbits

/-- The five registers are different words, so the offset of each finds it. -/
theorem timRegAt_offset (h : p.wf = true) (r : TimReg) : timRegAt p (p.offset r) = some r := by
  simp only [Params.wf, Bool.and_eq_true, decide_eq_true_eq, List.nodup_cons, List.mem_cons, List.not_mem_nil,
    or_false, not_or] at h
  obtain ⟨⟨-, ⟨hsr, hcnt, hpsc, harr⟩, ⟨hcnt', hpsc', harr'⟩, ⟨hpsc'', harr''⟩, harr''', -⟩, -⟩ := h
  cases r with
  | cr1 => simp [timRegAt, Params.offset]
  | sr => simp [timRegAt, Params.offset, Ne.symm hsr]
  | cnt => simp [timRegAt, Params.offset, Ne.symm hcnt, Ne.symm hcnt']
  | psc => simp [timRegAt, Params.offset, Ne.symm hpsc, Ne.symm hpsc', Ne.symm hpsc'']
  | arr => simp [timRegAt, Params.offset, Ne.symm harr, Ne.symm harr', Ne.symm harr'', Ne.symm harr''']

/-- R79, R81: an aligned access to a whole word passes both checks. -/
theorem wholeWord_aligned {k : Host.Outcome State Fault Refusal} (h : off % 4 = 0) : wholeWord off .word k = k := by
  rw [wholeWord, if_neg (not_not_intro rfl), if_neg (not_not_intro h)]

theorem act_hostWrite_timer : act (.hostWrite (.inWindow .timer off) size v) s = s.writeTimer off size v := rfl

theorem act_hostRead_timer : act (.hostRead (.inWindow .timer off) size) s = s.readTimer off size := rfl

theorem State.writeTimer_reg (hfree : s.owned = false) (hon : s.timerReachable = true) (hp : s.params.wf = true)
    (r : TimReg) : s.writeTimer (s.params.offset r) .word v = .next (s.writeTimerReg r v) := by
  rw [State.writeTimer, hfree, hon, wholeWord_aligned (Params.offset_aligned hp r), timRegAt_offset hp r]
  rfl

theorem State.readTimer_reg (hfree : s.owned = false) (hon : s.timerReachable = true) (hp : s.params.wf = true)
    (r : TimReg) : s.readTimer (s.params.offset r) .word = .next { s with
      hostData := some (s.tim.readWord s.params r (s.freeBits 32 0)), draws := s.draws + 1 } := by
  rw [State.readTimer, hfree, hon, wholeWord_aligned (Params.offset_aligned hp r), timRegAt_offset hp r]
  rfl

/-- R93: a gated or reset timer ignores a write, whatever it names. -/
theorem State.writeTimer_off (hfree : s.owned = false) (hoff : s.timerReachable = false) :
    s.writeTimer off size v = .next s := by
  rw [State.writeTimer, hfree, hoff]
  rfl

/-- R93: a gated or reset timer reads 0. -/
theorem State.readTimer_off (hfree : s.owned = false) (hoff : s.timerReachable = false) :
    s.readTimer off size = .next { s with hostData := some 0#32 } := by
  rw [State.readTimer, hfree, hoff]
  rfl

theorem State.timerWrite_on (f : Timer → Timer) (hon : s.timerReachable = true) :
    s.timerWrite f = { s with tim := f s.tim } := by
  rw [State.timerWrite, if_pos hon]

/-- R54: a write that turns CEN from 0 to 1 draws the phase, and any other write of CR1 draws nothing. -/
theorem State.writeTimerReg_on (hon : s.timerReachable = true) :
    s.writeTimerReg r v = if (Timer.writeWord s.params r v s.tim).cen && !s.tim.cen then
      { s with
        tim := (Timer.writeWord s.params r v s.tim).startAt s.params (Config.draw s.draws), draws := s.draws + 1,
        hostUsed := true }
    else { s with tim := Timer.writeWord s.params r v s.tim, hostUsed := true } := by
  rw [State.writeTimerReg, State.timerWrite_on _ hon]
  exact congrArg (ite _ · _)
    (State.drawPhase_on (s := { s with tim := Timer.writeWord s.params r v s.tim, hostUsed := true }) hon)

theorem State.writeTimerReg_of_not_start (hon : s.timerReachable = true)
    (h : (Timer.writeWord s.params r v s.tim).cen = false ∨ s.tim.cen = true) :
    s.writeTimerReg r v = { s with tim := Timer.writeWord s.params r v s.tim, hostUsed := true } := by
  rw [State.writeTimerReg_on hon, if_neg]
  rcases h with h | h <;> simp [h]

theorem State.writeTimerReg_of_start (hon : s.timerReachable = true)
    (h : (Timer.writeWord s.params r v s.tim).cen = true) (hstopped : s.tim.cen = false) :
    s.writeTimerReg r v = { s with
      tim := (Timer.writeWord s.params r v s.tim).startAt s.params (Config.draw s.draws), draws := s.draws + 1,
      hostUsed := true } := by
  rw [State.writeTimerReg_on hon, if_pos]
  simp [h, hstopped]

/-- R221: the SR bit of the word keeps UIF or clears it. -/
theorem Timer.writeWord_sr (p : Params) (v : Word) (t : Timer) :
    Timer.writeWord p .sr v t = { t with uif := t.uif && v.getLsbD p.uifBit.val } := by
  rw [Timer.writeWord]
  cases v.getLsbD p.uifBit.val with
  | true => simp
  | false => simp [Timer.clearUif]

/-- Only CR1 starts the counter. -/
theorem Timer.writeWord_cen (p : Params) (hr : r ≠ .cr1) (v : Word) (t : Timer) : (Timer.writeWord p r v t).cen = t.cen := by
  cases r with
  | cr1 => exact absurd rfl hr
  | sr => rw [Timer.writeWord_sr]
  | cnt | psc | arr => rfl

theorem State.writeTimer_not_cr1 (hfree : s.owned = false) (hon : s.timerReachable = true) (hp : s.params.wf = true)
    (hr : r ≠ .cr1) : s.writeTimer (s.params.offset r) .word v =
      .next { s with tim := Timer.writeWord s.params r v s.tim, hostUsed := true } := by
  rw [State.writeTimer_reg hfree hon hp r, State.writeTimerReg_of_not_start hon]
  rw [Timer.writeWord_cen s.params hr]
  exact (Bool.eq_false_or_eq_true s.tim.cen).symm

/-- R47, R48, R54: a write to CR1 sets CEN and DIR, and PCNT to some phase where it starts the counter. -/
theorem State.writeTimer_cr1 (hfree : s.owned = false) (hon : s.timerReachable = true) (hp : s.params.wf = true) :
    ∃ cen dir tim' d, cen = v.getLsbD s.params.cenBit.val ∧ dir = v.getLsbD s.params.dirBit.val ∧
      s.writeTimer s.params.cr1Off .word v = .next { s with tim := tim', draws := d, hostUsed := true } ∧
      (cen = false ∨ s.tim.cen = true → d = s.draws ∧ tim' = { s.tim with dir := dir, cen := cen }) ∧
      (cen = true → s.tim.cen = false → d = s.draws + 1 ∧ ∃ k : Count,
        k.toNat < divisor s.params s.tim.pscSh ∧ tim' = { s.tim with dir := dir, cen := cen, pcnt := k }) := by
  have hwrite := State.writeTimer_reg (v := v) hfree hon hp .cr1
  by_cases hstart : v.getLsbD s.params.cenBit.val = true ∧ s.tim.cen = false
  · obtain ⟨hcen, hstopped⟩ := hstart
    rw [State.writeTimerReg_of_start (r := .cr1) hon hcen hstopped] at hwrite
    exact ⟨_, _, _, _, rfl, rfl, hwrite, by simp [hcen, hstopped],
      fun _ _ => ⟨rfl, _, Timer.startAt_pcnt_lt s.params _ _, rfl⟩⟩
  · have hstays : v.getLsbD s.params.cenBit.val = false ∨ s.tim.cen = true := by simpa [imp_iff_not_or] using hstart
    rw [State.writeTimerReg_of_not_start (r := .cr1) hon hstays] at hwrite
    exact ⟨_, _, _, s.draws, rfl, rfl, hwrite, fun _ => ⟨rfl, rfl⟩,
      fun hcen hstopped => absurd ⟨hcen, hstopped⟩ hstart⟩

/-! The fields in the words that HOST reads; the bits at other places are free. -/

theorem Timer.readWord_cenBit (h : p.cenBit ≠ p.dirBit) (other : Word) :
    (t.readWord p .cr1 other).getLsbD p.cenBit.val = t.cen := by
  simp only [Timer.readWord, BitVec.getLsbD_or, BitVec.getLsbD_and, BitVec.getLsbD_not, cr1Word_getLsbD_cenBit h]
  simp

theorem Timer.readWord_dirBit (h : p.cenBit ≠ p.dirBit) (other : Word) :
    (t.readWord p .cr1 other).getLsbD p.dirBit.val = t.dir := by
  simp only [Timer.readWord, BitVec.getLsbD_or, BitVec.getLsbD_and, BitVec.getLsbD_not, cr1Word_getLsbD_dirBit h]
  simp

/-- A word in which the bit `b` of `w` is replaced by `on`. -/
theorem getLsbD_replaceBit (w : Word) (b c : Fin 32) (on : Bool) :
    ((w &&& ~~~(bitAt b true)) ||| bitAt b on).getLsbD c.val = if c = b then on else w.getLsbD c.val := by
  simp only [BitVec.getLsbD_or, BitVec.getLsbD_and, BitVec.getLsbD_not, getLsbD_bitAt]
  by_cases h : c = b <;> simp [h]

theorem Timer.readWord_uifBit (other : Word) : (t.readWord p .sr other).getLsbD p.uifBit.val = t.uif := by
  rw [Timer.readWord, getLsbD_replaceBit, if_pos rfl]

end TimerAccess

/-- Settles O55: on a timer that answers each register takes the word or shows its fields, and CR1 may start the counter; any
other timer ignores the access. -/
theorem hostUsesReleasedTimer : Obligations.HostUsesReleasedTimer := by
  intro s v hl hb hp
  have hfree := State.owned_eq_false hl hb
  have hbits := cenBit_ne_dirBit hp
  simp only [act_hostWrite_timer, act_hostRead_timer]
  refine ⟨fun hen hrst => ?_, fun hoff _ _ => ?_⟩
  · have hon := s.timerReachable_on hen hrst
    refine ⟨?_, ?_, ⟨v.extractLsb' 0 16, ?_, ?_, ?_, ?_⟩, fun r => ⟨_, State.readTimer_reg hfree hon hp r, ?_⟩⟩
    · exact State.writeTimer_cr1 hfree hon hp
    · exact (State.writeTimer_not_cr1 (r := .sr) hfree hon hp (by decide)).trans (by rw [Timer.writeWord_sr])
    · simp
    · exact State.writeTimer_not_cr1 (r := .cnt) hfree hon hp (by decide)
    · exact State.writeTimer_not_cr1 (r := .psc) hfree hon hp (by decide)
    · exact State.writeTimer_not_cr1 (r := .arr) hfree hon hp (by decide)
    · refine ⟨?_, ?_, ?_, ?_, ?_⟩ <;> rintro rfl
      · exact ⟨Timer.readWord_cenBit hbits _, Timer.readWord_dirBit hbits _⟩
      · exact Timer.readWord_uifBit _
      · exact toNat_setWidth_half _
      · exact toNat_setWidth_half _
      · exact toNat_setWidth_half _
  · have hignored := s.timerReachable_off hoff
    exact ⟨State.writeTimer_off hfree hignored, State.readTimer_off hfree hignored⟩

/-! ## The RCC bits of a released timer (R56, R57, R76, R272) -/

section RccAccess
variable {s : State} {pl : Platform} {r b : RccBit} {v w : Word}

theorem State.readRcc_free (hfree : s.owned = false) : s.readRcc r 0 .word = .next { s with
    hostData := some (s.showRccBit Config.platform r .rst (s.showRccBit Config.platform r .en (s.freeBits 32 0))),
    draws := s.draws + 1 } := by
  rw [State.readRcc, hfree]
  rfl

theorem State.writeRcc_free (hfree : s.owned = false) : s.writeRcc r 0 .word v =
    .next ((s.takeRccBit Config.platform r .en v).takeRccBit Config.platform r .rst v).markHostUse := by
  rw [State.writeRcc, hfree]
  rfl

theorem State.hostRcc_free (hfree : s.owned = false) (on : Bool) :
    s.hostRcc b on = (s.writeRccBit b on).markHostUse := by
  rw [State.hostRcc, hfree]
  rfl

theorem holds_en_iff : pl.holds r .en = true ↔ r = .en ∨ pl.rccEnAddr = pl.rccRstAddr := by
  rw [Platform.holds, decide_eq_true_iff]
  cases r with
  | en => simp
  | rst => simp [Platform.rccAddr, eq_comm]

theorem holds_rst_iff : pl.holds r .rst = true ↔ r = .rst ∨ pl.rccEnAddr = pl.rccRstAddr := by
  rw [Platform.holds, decide_eq_true_iff]
  cases r with
  | en => simp [Platform.rccAddr]
  | rst => simp

/-- R85: where both bits are in one register, they are different bits of it. -/
theorem rccEnBit_ne_rccRstBit (h : pl.wf = true) (ha : pl.rccEnAddr = pl.rccRstAddr) : pl.rccEnBit ≠ pl.rccRstBit := by
  simp only [Platform.wf, Bool.and_eq_true] at h
  obtain ⟨⟨-, hbits⟩, -⟩ := h
  rw [if_pos ha] at hbits
  exact of_decide_eq_true hbits

/-- A read shows a bit that the register holds, and leaves the other bits of the word. -/
theorem State.showRccBit_getLsbD (h : pl.holds r b = true) (c : Fin 32) :
    (s.showRccBit pl r b w).getLsbD c.val = if c = pl.rccBit b then s.rccBit b else w.getLsbD c.val := by
  rw [State.showRccBit, if_pos h, getLsbD_replaceBit]

/-- A read shows RCC.EN also where RCC.RST is shown in the same word. -/
theorem State.showRccBits_en (hwf : pl.wf = true) (h : pl.holds r .en = true) :
    (s.showRccBit pl r .rst (s.showRccBit pl r .en w)).getLsbD pl.rccEnBit.val = s.rccEn := by
  have hen : (s.showRccBit pl r .en w).getLsbD pl.rccEnBit.val = s.rccEn :=
    (State.showRccBit_getLsbD h pl.rccEnBit).trans (if_pos rfl)
  cases hrst : pl.holds r .rst with
  | false => rw [State.showRccBit, hrst]; exact hen
  | true =>
    have ha : pl.rccEnAddr = pl.rccRstAddr := by
      cases r with
      | en => exact (holds_rst_iff.mp hrst).resolve_left RccBit.noConfusion
      | rst => exact (holds_en_iff.mp h).resolve_left RccBit.noConfusion
    exact (State.showRccBit_getLsbD hrst pl.rccEnBit).trans ((if_neg (rccEnBit_ne_rccRstBit hwf ha)).trans hen)

/-- A read shows RCC.RST. -/
theorem State.showRccBits_rst (h : pl.holds r .rst = true) :
    (s.showRccBit pl r .rst w).getLsbD pl.rccRstBit.val = s.rccRst :=
  (State.showRccBit_getLsbD h pl.rccRstBit).trans (if_pos rfl)

/-- What a write of the whole register leaves of RCC.EN, of RCC.RST and of the timer. -/
theorem State.takeRccBits_eq (s : State) (pl : Platform) (r : RccBit) (v : Word) :
    ((s.takeRccBit pl r .en v).takeRccBit pl r .rst v).markHostUse = { s with
      rccEn := if pl.holds r .en then v.getLsbD pl.rccEnBit.val else s.rccEn,
      rccRst := if pl.holds r .rst then v.getLsbD pl.rccRstBit.val else s.rccRst,
      tim := if pl.holds r .rst && v.getLsbD pl.rccRstBit.val then Timer.atReset s.params else s.tim,
      hostUsed := true } := by
  unfold State.takeRccBit
  cases pl.holds r .en <;> cases pl.holds r .rst <;> rfl

end RccAccess

/-- Settles O56: the atomic operations write the bit they name, and an access to a whole register the bits it holds. -/
theorem hostUsesReleasedRccBits : Obligations.HostUsesReleasedRccBits := by
  intro s v hl hb
  have hfree := State.owned_eq_false hl hb
  have bit (b : RccBit) (on : Bool) : act (.hostBit b on) s = .next (s.writeRccBit b on).markHostUse :=
    congrArg Host.Outcome.next (State.hostRcc_free hfree on)
  refine ⟨bit .en, bit .rst false, bit .rst true, fun b => ⟨_, _, _, _, State.readRcc_free hfree,
    (State.writeRcc_free hfree).trans (congrArg _ (s.takeRccBits_eq Config.platform b v)), fun hen => ?_, fun hrst => ?_,
    fun hne => ⟨?_, ?_⟩⟩⟩
  · have hholds := holds_en_iff.mpr hen
    exact ⟨State.showRccBits_en Config.platform_wf hholds, if_pos hholds⟩
  · have hholds := holds_rst_iff.mpr hrst
    refine ⟨State.showRccBits_rst hholds, if_pos hholds, fun h => ?_, fun h => ?_⟩
    · rw [if_pos hholds] at h
      rw [hholds, h]
      rfl
    · rw [if_pos hholds] at h
      rw [hholds, h]
      rfl
  · rintro rfl
    have hother : Config.platform.holds .en .rst = false :=
      Bool.eq_false_iff.mpr fun h => hne ((holds_rst_iff.mp h).resolve_left RccBit.noConfusion)
    rw [hother]
    exact ⟨rfl, rfl⟩
  · rintro rfl
    have hother : Config.platform.holds .rst .en = false :=
      Bool.eq_false_iff.mpr fun h => hne ((holds_en_iff.mp h).resolve_left RccBit.noConfusion)
    rw [hother]
    rfl

end Sys2Proof.Machine

/-!
PROOFS. The wait for the countdown (60_exceptions.md R258, R271): a host in `wait.idle` and a sequencer in UIF_POLL wait for
ever while the timer cannot count, and under the fairness of SEQ and TIM come to CEN_CLR where it counts down.
-/

namespace Sys2Proof.Machine

/-! ## One turn of a run that waits in UIF_POLL (R194, R258, R271) -/

/-- The turns of the four agents, without the platform's events and the resets. -/
def agentTurns : List Turn := [.host, .seq, .tim, .env]

/-- SEQ polls for the end of a countdown, and the host waits with the program `prog` (R111, R194). -/
structure Run.Polls (prog : List HostOp) (r : Run) : Prop where
  program : r.prog = prog
  waits : ∃ rest, prog = .waitIdle :: rest
  busy : r.st.busy = true
  upc : r.st.upc = Upc.uifPoll

/-- What the turn `t` of such a run changes: a cycle for TIM's where the timer counts, the successor of UIF_POLL for SEQ's,
and otherwise nothing that the wait depends on. -/
structure Run.PollTurn (t : Turn) (r r' : Run) : Prop where
  program : r'.prog = r.prog
  busy : r'.st.busy = r.st.busy
  fault : r'.st.fault = r.st.fault
  clkRun : r'.st.clkRun = r.st.clkRun
  rccEn : r'.st.rccEn = r.st.rccEn
  rccRst : r'.st.rccRst = r.st.rccRst
  params : r'.st.params = r.st.params
  upc : r'.st.upc = if t = .seq ∧ r.st.pollUif = true then Upc.cenClr else Upc.uifPoll
  tim : r'.st.tim = if t = .tim ∧ r.st.counting = true then r.st.tim.cycle r.st.params else r.st.tim

section PollTurn
variable {r r' : Run} {t : Turn} {prog : List HostOp}

/-- A timer that does not count up lets every agent's turn go on. -/
theorem Run.Polls.turn (h : r.Polls prog) (hdir : r.st.counting = true → r.st.tim.dir = true) (ht : t ∈ agentTurns) :
    ∃ r', r.turn t = .next r' ∧ Run.PollTurn t r r' := by
  obtain ⟨hprog, ⟨rest, hwaits⟩, hbusy, hupc⟩ := h
  simp only [agentTurns, List.mem_cons, List.not_mem_nil, or_false] at ht
  rcases ht with rfl | rfl | rfl | rfl
  case inl =>
    obtain ⟨d, b, hturn⟩ := Run.hostTurn_wait (hprog.trans hwaits) hbusy
    exact ⟨_, hturn, ⟨rfl, rfl, rfl, rfl, rfl, rfl, rfl, by simp [hupc], rfl⟩⟩
  case inr.inl =>
    have hpoll : decodeMicro r.st.upc = .ok .uopUifPoll := by rw [hupc]; rfl
    exact ⟨_, Run.turn_seq hpoll (exec_uifPoll_eq r.st),
      ⟨rfl, rfl, rfl, rfl, rfl, rfl, rfl, by simp, rfl⟩⟩
  case inr.inr.inl =>
    cases hcount : r.st.counting with
    | true =>
      exact ⟨_, Run.turn_tim_counting hcount (hdir hcount),
        ⟨rfl, rfl, rfl, rfl, rfl, rfl, rfl, by simp [hupc], by simp [hcount]⟩⟩
    | false =>
      exact ⟨_, Run.turn_tim_stopped hcount, ⟨rfl, rfl, rfl, rfl, rfl, rfl, rfl, by simp [hupc], by simp [hcount]⟩⟩
  case inr.inr.inr => exact ⟨_, Run.turn_env r, ⟨rfl, rfl, rfl, rfl, rfl, rfl, rfl, by simp [hupc], rfl⟩⟩

theorem Run.Polls.pollTurn (h : r.Polls prog) (hdir : r.st.counting = true → r.st.tim.dir = true) (ht : t ∈ agentTurns)
    (hturn : r.turn t = .next r') : Run.PollTurn t r r' := by
  obtain ⟨r'', hturn', hpoll⟩ := h.turn hdir ht
  obtain rfl := Host.Outcome.next.inj (hturn.symm.trans hturn')
  exact hpoll

theorem Run.Polls.next (h : r.Polls prog) (hturn : Run.PollTurn t r r') (hstays : ¬ (t = .seq ∧ r.st.pollUif = true)) :
    r'.Polls prog where
  program := hturn.program.trans h.program
  waits := h.waits
  busy := hturn.busy.trans h.busy
  upc := hturn.upc.trans (if_neg hstays)

end PollTurn

/-! ## Waiting for ever (R258) -/

section Hang
variable {r r' : Run} {t : Turn} {prog : List HostOp} {turns : Nat → Turn} {runs : Nat → Run}

/-- R258: the run waits for a flag that is clear, on a timer whose clock is off, gated or stopped, or which is in reset. -/
structure Run.Stuck (prog : List HostOp) (r : Run) : Prop extends Run.Polls prog r where
  fault : r.st.fault = false
  flag : r.st.tim.uif = false
  stopped : r.st.clkRun = false ∨ r.st.rccEn = false ∨ r.st.rccRst = true

/-- R271: such a timer does not count, whatever CEN is. -/
theorem State.counting_eq_false_of_stopped {s : State}
    (h : s.clkRun = false ∨ s.rccEn = false ∨ s.rccRst = true) : s.counting = false :=
  State.counting_eq_false_iff.mpr (h.imp_right (·.imp_right .inl))

theorem Run.Stuck.counting (h : r.Stuck prog) : r.st.counting = false := State.counting_eq_false_of_stopped h.stopped

theorem Run.Stuck.next (h : r.Stuck prog) (hturn : Run.PollTurn t r r') : r'.Stuck prog where
  toPolls := h.toPolls.next hturn (by simp [State.pollUif, h.flag])
  fault := hturn.fault.trans h.fault
  flag := by rw [hturn.tim, h.counting]; simpa using h.flag
  stopped := by rw [hturn.clkRun, hturn.rccEn, hturn.rccRst]; exact h.stopped

theorem Run.Stuck.turn (h : r.Stuck prog) (ht : t ∈ agentTurns) : ∃ r', r.turn t = .next r' ∧ r'.Stuck prog := by
  obtain ⟨r', hturn, hpoll⟩ := h.toPolls.turn (by simp [h.counting]) ht
  exact ⟨r', hturn, h.next hpoll⟩

/-- Every execution of the agents' turns stays there. -/
theorem Execution.stuck (hexec : Execution r turns runs) (hagents : ∀ k, turns k ∈ agentTurns) (h : r.Stuck prog)
    (k : Nat) : (runs k).Stuck prog := by
  induction k with
  | zero => exact hexec.starts ▸ h
  | succ k ih =>
    obtain ⟨r', hturn, hstuck⟩ := ih.turn (hagents k)
    obtain rfl := Host.Outcome.next.inj ((hexec.goesOn k).symm.trans hturn)
    exact hstuck

/-- The runs that the turns lead through from `r`, as long as no turn stops. -/
def Run.follow (turns : Nat → Turn) (r : Run) : Nat → Run
  | 0 => r
  | k + 1 =>
    match (r.follow turns k).turn (turns k) with
    | .next r' => r'
    | .fault _ => r.follow turns k
    | .refused _ => r.follow turns k

theorem Run.follow_succ {k : Nat} (h : (r.follow turns k).turn (turns k) = .next r') : r.follow turns (k + 1) = r' := by
  rw [Run.follow, h]

/-- A property under which every turn goes on, and which every turn keeps, gives an infinite execution. -/
theorem Execution.follow {P : Run → Prop} (hr : P r) (hgo : ∀ r, P r → ∀ k, ∃ r', r.turn (turns k) = .next r' ∧ P r') :
    Execution r turns (r.follow turns) := by
  have hinv (k : Nat) : P (r.follow turns k) := by
    induction k with
    | zero => exact hr
    | succ k ih =>
      obtain ⟨r', hturn, hP⟩ := hgo _ ih k
      exact Run.follow_succ hturn ▸ hP
  refine ⟨rfl, fun k => ?_⟩
  obtain ⟨r', hturn, -⟩ := hgo _ (hinv k) k
  rw [hturn, Run.follow_succ hturn]

/-- HOST and SEQ in turns. -/
def pollingTurns (k : Nat) : Turn := if k % 2 = 0 then .host else .seq

theorem pollingTurns_mem (k : Nat) : pollingTurns k ∈ agentTurns := by
  unfold pollingTurns
  split <;> decide

theorem pollingTurns_host (k : Nat) : ∃ j, k ≤ j ∧ pollingTurns j = .host :=
  ⟨2 * k, by omega, if_pos (by omega)⟩

theorem pollingTurns_seq (k : Nat) : ∃ j, k ≤ j ∧ pollingTurns j = .seq :=
  ⟨2 * k + 1, by omega, if_neg (by omega)⟩

/-- R258: a run that is stuck has an execution in which both poll for ever, and which is fair, since TIM has no step. -/
theorem Run.Stuck.exists_fair (h : r.Stuck prog) : ∃ turns runs, Execution r turns runs ∧ Fair turns runs ∧
    hostGoesOn turns runs ∧ ∀ k, (runs k).Stuck prog := by
  have hexec : Execution r pollingTurns (r.follow pollingTurns) :=
    Execution.follow h fun _ hstuck k => hstuck.turn (pollingTurns_mem k)
  have hstuck := hexec.stuck pollingTurns_mem h
  refine ⟨_, _, hexec, ⟨fun k _ => pollingTurns_seq k, fun k hcount => ?_⟩, fun k _ => pollingTurns_host k, hstuck⟩
  exact absurd ((hstuck k).counting.symm.trans (hcount k le_rfl)) Bool.false_ne_true

theorem Run.Stuck.hangs (h : r.Stuck prog) : hangs r := by
  obtain ⟨turns, runs, hexec, hfair, -, hstuck⟩ := h.exists_fair
  exact ⟨turns, runs, hexec, hfair, 0, fun j _ => (hstuck j).busy⟩

theorem Run.Stuck.not_terminates (h : r.Stuck prog) : ¬ terminates r := by
  obtain ⟨turns, runs, hexec, hfair, hhost, hstuck⟩ := h.exists_fair
  intro hterm
  obtain ⟨k, hfinished | hfaulted⟩ := hterm turns runs hexec hfair hhost
  · simp [Run.finished, (hstuck k).busy] at hfinished
  · simp [Run.faulted, (hstuck k).fault] at hfaulted

/-- R258: a turn of SEQ, TIM or ENV leaves a stuck state but for the bus trace. -/
theorem step_stuck {s : State} {e : Event} {rest : List Event} (he : e = .seq ∨ e = .tim ∨ e = .env)
    (hin : s.inputs = e :: rest) (hupc : s.upc = Upc.uifPoll) (hflag : s.tim.uif = false) (hcount : s.counting = false) :
    ∃ tr, step s = .next { s with inputs := rest, busTrace := tr } := by
  rcases he with rfl | rfl | rfl
  · have hpoll : s.pollUif = false := State.pollUif_eq_false (.inr (.inr hflag))
    refine ⟨.memRead .sr :: s.busTrace, (step_seq (i := .uopUifPoll) hin (by rw [hupc]; rfl)).trans ?_⟩
    have hstays : (if ({ s with inputs := rest } : State).pollUif then Upc.cenClr else Upc.uifPoll) = s.upc :=
      (if_neg (ne_true_of_eq_false hpoll)).trans hupc.symm
    rw [exec_uifPoll_eq, hstays]
  · exact ⟨s.busTrace, step_tim_idle hin hcount⟩
  · exact ⟨s.busTrace, step_env hin⟩

theorem runFor_stuck {s : State} {es rest : List Event} (hes : ∀ e ∈ es, e = .seq ∨ e = .tim ∨ e = .env)
    (hin : s.inputs = es ++ rest) (hupc : s.upc = Upc.uifPoll) (hflag : s.tim.uif = false) (hcount : s.counting = false) :
    ∃ tr, runFor es.length s = .next { s with inputs := rest, busTrace := tr } := by
  induction es generalizing s with
  | nil =>
    refine ⟨s.busTrace, ?_⟩
    rw [← show s.inputs = rest from hin]
    rfl
  | cons e es ih =>
    obtain ⟨he, hes⟩ := List.forall_mem_cons.mp hes
    obtain ⟨tr, hstep⟩ := step_stuck he hin hupc hflag hcount
    rw [List.length_cons, runFor_next _ hstep]
    exact ih (s := { s with inputs := es ++ rest, busTrace := tr }) hes rfl hupc hflag hcount

end Hang

/-- Settles O40: a poll reads the clear flag and goes back, TIM has no step, and the host reads BUSY = 1 and goes on
waiting. -/
theorem pollHangsWithoutClock : Obligations.PollHangsWithoutClock := by
  refine ⟨fun s es rest hes hin hupc hflag hstop =>
    runFor_stuck hes hin hupc hflag (State.counting_eq_false_of_stopped hstop),
    fun r rest hprog hbusy hfault hupc hflag hstop => ?_⟩
  have hstuck : r.Stuck r.prog := ⟨⟨rfl, ⟨rest, hprog⟩, hbusy, hupc⟩, hfault, hflag, hstop⟩
  refine ⟨hstuck.hangs, hstuck.not_terminates, fun turns runs hexec hagents k => ?_⟩
  have hk := hexec.stuck hagents hstuck k
  exact ⟨hk.busy, hk.upc, hk.program⟩

/-! ## Coming to the end of a countdown (R270, R271, R316) -/

section Progress
variable {r r' : Run} {t : Turn} {prog : List HostOp} {turns : Nat → Turn} {runs : Nat → Run} {p : Params} {tim : Timer}

/-- R317: from a phase below the divisor the flag is set after the cycles that are left. -/
theorem Timer.eventually_uif_of_phase (hphase : tim.pcnt.toNat < divisor p tim.pscSh) :
    ∃ n, ∀ m, n ≤ m → ((Timer.cycle p)^[m] tim).uif = true := by
  cases hflag : tim.uif with
  | true => exact ⟨0, fun m _ => (Timer.iterate_cycle_cycled p m tim).flag hflag⟩
  | false =>
    have hle := Nat.mul_le_mul_right (divisor p tim.pscSh) (expiryTicks_pos p tim.cnt)
    have hcounts : tim.Counts p (expiryTicks p tim.cnt * divisor p tim.pscSh - tim.pcnt.toNat) :=
      ⟨hflag, hphase, by omega⟩
    exact ⟨_, fun m hm => hcounts.iterate_cycle_uif hm⟩

/-- A phase at or past the divisor wraps at the next cycle, so enough cycles set the flag from any phase. -/
theorem Timer.eventually_uif (p : Params) (tim : Timer) : ∃ n, ∀ m, n ≤ m → ((Timer.cycle p)^[m] tim).uif = true := by
  by_cases hphase : tim.pcnt.toNat + 1 < divisor p tim.pscSh
  · exact Timer.eventually_uif_of_phase (by omega)
  · have hwrapped : (tim.cycle p).pcnt.toNat < divisor p (tim.cycle p).pscSh := by
      obtain ⟨-, -, -, -, hpcnt, -⟩ := Timer.tick_frame p { tim with pcnt := 0#17 }
      rw [Timer.cycle_of_wrap hphase, hpcnt]
      exact divisor_pos ..
    obtain ⟨n, hn⟩ := Timer.eventually_uif_of_phase hwrapped
    refine ⟨n + 1, fun m hm => ?_⟩
    obtain ⟨m, rfl⟩ := Nat.exists_eq_add_of_le' (show 1 ≤ m by omega)
    exact hn m (by omega)

/-- The run waits for a timer that counts down. -/
structure Run.CountsDown (prog : List HostOp) (r : Run) : Prop extends Run.Polls prog r where
  counting : r.st.counting = true
  down : r.st.tim.dir = true

/-- The wait is over: SEQ is at CEN_CLR, and the host still waits. -/
def Run.PollEnded (prog : List HostOp) (r : Run) : Prop :=
  r.st.upc = Upc.cenClr ∧ r.st.busy = true ∧ r.prog = prog

/-- R194: the poll that sees the flag ends the wait. -/
theorem Run.CountsDown.pollEnded (h : r.CountsDown prog) (hturn : Run.PollTurn t r r')
    (hseen : t = .seq ∧ r.st.pollUif = true) : r'.PollEnded prog :=
  ⟨hturn.upc.trans (if_pos hseen), hturn.busy.trans h.busy, hturn.program.trans h.program⟩

/-- Every other turn leaves a run that still waits. -/
theorem Run.CountsDown.next (h : r.CountsDown prog) (hturn : Run.PollTurn t r r')
    (hstays : ¬ (t = .seq ∧ r.st.pollUif = true)) : r'.CountsDown prog := by
  have hkept : r'.st.tim.cen = r.st.tim.cen ∧ r'.st.tim.dir = r.st.tim.dir := by
    obtain ⟨hcen, hdir, -⟩ := Timer.cycle_frame r.st.params r.st.tim
    rw [hturn.tim]
    split
    · exact ⟨hcen, hdir⟩
    · exact ⟨rfl, rfl⟩
  obtain ⟨hcen, hdir⟩ := hkept
  refine ⟨h.toPolls.next hturn hstays, ?_, hdir.trans h.down⟩
  rw [State.counting, hturn.clkRun, hturn.rccEn, hturn.rccRst, hcen]
  exact h.counting

theorem Run.CountsDown.pollUif (h : r.CountsDown prog) (hflag : r.st.tim.uif = true) : r.st.pollUif = true := by
  have hcount := h.counting
  simp only [State.counting, Bool.and_eq_true] at hcount
  simp [State.pollUif, State.timerReachable, hcount, hflag]

theorem Run.CountsDown.seqEnabled (h : r.CountsDown prog) : r.st.seqEnabled = true := by
  rw [State.seqEnabled, h.upc]
  rfl

/-- An execution whose wait does not end waits at every place. -/
theorem Execution.countsDown (hexec : Execution r turns runs) (hagents : ∀ k, turns k ∈ agentTurns)
    (h : r.CountsDown prog) (hnever : ¬ ∃ k, (runs k).PollEnded prog) (k : Nat) :
    (runs k).CountsDown prog ∧ Run.PollTurn (turns k) (runs k) (runs (k + 1)) := by
  have turn {k : Nat} (hk : (runs k).CountsDown prog) : Run.PollTurn (turns k) (runs k) (runs (k + 1)) :=
    hk.pollTurn (fun _ => hk.down) (hagents k) (hexec.goesOn k)
  induction k with
  | zero =>
    have hzero : (runs 0).CountsDown prog := hexec.starts ▸ h
    exact ⟨hzero, turn hzero⟩
  | succ k ih =>
    obtain ⟨hk, hturn⟩ := ih
    have hsucc := hk.next hturn fun hseen => hnever ⟨k + 1, hk.pollEnded hturn hseen⟩
    exact ⟨hsucc, turn hsucc⟩

/-- R271: while the run waits, the timer has had one cycle for each of TIM's turns. -/
theorem tim_eq_iterate_cycle (hstart : runs 0 = r)
    (h : ∀ k, (runs k).CountsDown prog ∧ Run.PollTurn (turns k) (runs k) (runs (k + 1))) (k : Nat) :
    (runs k).st.params = r.st.params ∧
    (runs k).st.tim = (Timer.cycle r.st.params)^[Nat.count (turns · = .tim) k] r.st.tim := by
  induction k with
  | zero => simp [hstart]
  | succ k ih =>
    obtain ⟨hparams, htim⟩ := ih
    obtain ⟨hk, hturn⟩ := h k
    refine ⟨hturn.params.trans hparams, ?_⟩
    rw [hturn.tim, Nat.count_succ, hk.counting, hparams, htim]
    by_cases ht : turns k = .tim
    · rw [if_pos ⟨ht, rfl⟩, if_pos ht, Function.iterate_succ_apply']
    · rw [if_neg fun ⟨hturn, _⟩ => ht hturn, if_neg ht]
      rfl

end Progress

/-- Settles O41: a wait that never ended would give TIM, by its fairness, enough cycles to set the flag, and SEQ, by its own,
a poll that sees it. -/
theorem fairRunLeavesPoll : Obligations.FairRunLeavesPoll := by
  intro r rest turns runs hexec hfair hagents hprog hbusy hupc hclk hen hrst hcen hdir
  have hstart : r.CountsDown r.prog :=
    ⟨⟨rfl, ⟨rest, hprog⟩, hbusy, hupc⟩, State.counting_of hclk (r.st.timerReachable_on hen hrst) hcen, hdir⟩
  by_contra hnever
  have hwaits := hexec.countsDown hagents hstart hnever
  obtain ⟨n, hset⟩ := Timer.eventually_uif r.st.params r.st.tim
  have htim : ∀ k, ∃ j, k ≤ j ∧ turns j = .tim := fun k => hfair.tim k fun j _ => (hwaits j).1.counting
  obtain ⟨k, hcount⟩ : ∃ k, Nat.count (turns · = .tim) k = n :=
    Nat.surjective_count_of_infinite_setOfPred
      (Nat.frequently_atTop_iff_infinite.mp (Filter.frequently_atTop.mpr htim)) n
  obtain ⟨j, hkj, hseq⟩ := hfair.seq k fun j _ => (hwaits j).1.seqEnabled
  have hflag : (runs j).st.tim.uif = true := by
    obtain ⟨-, hcycles⟩ := tim_eq_iterate_cycle hexec.starts hwaits j
    rw [hcycles]
    exact hset _ (hcount ▸ Nat.count_monotone _ hkj)
  obtain ⟨hj, hturn⟩ := hwaits j
  exact hnever ⟨j + 1, hj.pollEnded hturn ⟨hseq, hj.pollUif hflag⟩⟩

end Sys2Proof.Machine

/-!
PROOFS. The resets and the timing of a countdown (70_reset_and_hazards.md): at which input cycle a countdown sets the flag
(R317), and what engine reset, system reset and the state after reset hold (R300 to R302).
-/

namespace Sys2Proof.Machine

/-! ## The cycles of a countdown (R317) -/

section Cycles
variable {p : Params} {t : Timer} {left k : Nat}

/-- R317: a countdown from a phase below the divisor has T * D - PCNT cycles left. -/
theorem Timer.counts_of_phase (hflag : t.uif = false) (hphase : t.pcnt.toNat < divisor p t.pscSh) :
    t.Counts p (expiryTicks p t.cnt * divisor p t.pscSh - t.pcnt.toNat) := by
  have hone := Nat.mul_le_mul_right (divisor p t.pscSh) (expiryTicks_pos p t.cnt)
  exact ⟨hflag, hphase, by omega⟩

/-- R317: fewer cycles than are left bring the countdown on by as many. -/
theorem Timer.Counts.iterate_cycle (h : t.Counts p left) (hk : k < left) :
    ((Timer.cycle p)^[k] t).Counts p (left - k) := by
  induction k with
  | zero => exact h
  | succ k ih =>
    have hleft : left - k = left - (k + 1) + 1 := by omega
    rw [Function.iterate_succ_apply']
    exact (hleft ▸ ih (by omega)).cycle_of_more (by omega)

/-- R317: the flag is set from the last of the cycles left on, and not before. -/
theorem Timer.Counts.uif_iterate_cycle (h : t.Counts p left) (k : Nat) :
    ((Timer.cycle p)^[k] t).uif = decide (left ≤ k) := by
  by_cases hk : left ≤ k
  · rw [decide_eq_true hk, h.iterate_cycle_uif hk]
  · rw [decide_eq_false hk, (h.iterate_cycle (not_le.mp hk)).flag]

/-- R317: a phase below the divisor shortens a countdown by less than one tick. -/
theorem Timer.cycles_left_lower_bound (hphase : t.pcnt.toNat < divisor p t.pscSh) :
    (expiryTicks p t.cnt - 1) * divisor p t.pscSh + 1 ≤ expiryTicks p t.cnt * divisor p t.pscSh - t.pcnt.toNat := by
  have hone := Nat.mul_le_mul_right (divisor p t.pscSh) (expiryTicks_pos p t.cnt)
  rw [Nat.sub_one_mul]
  omega

end Cycles

/-- Settles O35: the placed turns are input cycles of a countdown that has T * D - PCNT of them left. -/
theorem countdownCycleCount : Obligations.CountdownCycleCount := by
  intro s k rest hclk hen hrst hcen hdir hflag hphase hin
  have hcount : s.counting = true := State.counting_of hclk (s.timerReachable_on hen hrst) hcen
  have hkept := Timer.iterate_cycle_cycled s.params k s.tim
  exact ⟨_, runFor_cycles hcount hdir hin, (Timer.counts_of_phase hflag hphase).uif_iterate_cycle k,
    hkept.cen.trans hcen, hkept.dir.trans hdir, hkept.psc, Timer.cycles_left_lower_bound hphase⟩

/-! ## The resets (R300 to R302) -/

section Resets
variable (s : State)

/-- R44: the free value of REPS after a reset is in its range. -/
theorem State.engineReset_reps_bounds : 1 ≤ s.engineReset.reps.toNat ∧ s.engineReset.reps.toNat ≤ 65536 := by
  rw [State.engineReset_reps, BitVec.toNat_ofNat]
  omega

/-- R45: the free value of REP after a reset is in its range. -/
theorem State.engineReset_rep_le : s.engineReset.rep.toNat ≤ 65536 := by
  rw [State.engineReset_rep, BitVec.toNat_ofNat]
  omega

/-- R229, entry 25: the commands that an engine reset cuts short are the running one and the one CMD_WHILE_BUSY stopped. -/
theorem State.engineReset_cutShort_iff : s.engineReset.cutShort = true ↔
    s.cutShort = true ∨ s.busy = true ∨ (s.fault = true ∧ s.fcode = 1#4) := by
  rw [State.engineReset_cutShort]
  simp only [Bool.or_eq_true, Bool.and_eq_true, decide_eq_true_eq, or_assoc]
  rfl

theorem act_engReset : act .engReset s = .next s.engineReset := rfl

theorem act_sysReset : act .sysReset s = .next s.systemReset := rfl

end Resets

/-- Settles O59: the fields that engine reset sets and those it leaves, the ranges of its free values, and what it records. -/
theorem engineResetEffect : Obligations.EngineResetEffect := by
  intro s
  obtain ⟨hrepsPos, hrepsLe⟩ := s.engineReset_reps_bounds
  exact ⟨s.engineReset, act_engReset s, rfl, rfl, rfl, rfl, rfl, rfl, rfl, rfl, rfl, rfl, rfl, rfl, hrepsPos, hrepsLe,
    s.engineReset_rep_le, rfl, rfl, s.engineReset_cutShort_iff⟩

/-- Settles O60: system reset takes its working registers from engine reset, and the rest are the values of R301. -/
theorem systemResetEffect : Obligations.SystemResetEffect := by
  refine ⟨fun s => ?_, ?_, State.reset_eq⟩
  · obtain ⟨hrepsPos, hrepsLe⟩ := s.engineReset_reps_bounds
    exact ⟨s.systemReset, act_sysReset s, rfl, rfl, rfl, rfl, rfl, rfl, rfl, rfl, rfl, rfl, rfl, hrepsPos, hrepsLe,
      s.engineReset_rep_le, rfl, rfl, rfl, rfl⟩
  · rintro ps _ rfl
    exact ⟨rfl, rfl, rfl, rfl, rfl, rfl, rfl, rfl, rfl, rfl, rfl, rfl, rfl, rfl, rfl⟩

end Sys2Proof.Machine
